-- ==== Sys2Proof/Word.lean ====
section
/-! DEFINITION. The words the FC480's registers and messages are made of. -/

namespace Sys2Proof

/-- One byte of a frame (spec 10, R172). -/
abbrev Byte := BitVec 8

/-- An uptime or a wall-clock value: a count of seconds modulo 2^32 (spec 11, R186). -/
abbrev Time := BitVec 32

/-- A text field: its characters, 20h to 7Eh, in order (spec 10, R172). -/
abbrev Text := List Byte

end Sys2Proof
end

