-- ==== Sys2Proof/Syntax.lean ====
section
/-! DEFINITION. The commands the FC480 takes: one constructor for each row of spec/opcode_table.json. -/

namespace Sys2Proof

/-- One byte received on HRX, with whether its stop bit was bad (R173). -/
structure RxByte where
  value : Byte
  badStop : Bool
  deriving DecidableEq, Repr

/-- The twelve fault classes, in the order of the policy table of R28. -/
inductive FaultClass where
  | jam | coverOpen | paperOut | supplyEmpty | supplyAbsent | mechanism
  | silence | stall | counterRegress | consumption | serviceDue | other
  deriving DecidableEq, Repr

/-- Why the answer to a poll is bad although one arrived (R125). -/
inductive BadAnswer where
  | wrongCheck | otherAddress | unknownKind
  deriving DecidableEq, Repr

/-- The commands. A request command carries no operand of its own: it serves the oldest frame of the
request queue, and its operands are the fields of that frame's body (R174 to R176, log entry 4). -/
inductive Instr where
  /-- A run of bytes arrives on HRX with no gap before it or inside it (R173). -/
  | hostFrame (bytes : List RxByte)
  /-- A gap of more than 20 ms, then a run of bytes (R173). -/
  | frameGap (bytes : List RxByte)
  | unknownKind
  | identify
  | readAttention
  | ackAttention
  | setAttentionEnables
  | commitSettings
  /-- The running save ends; the image reads back equal or not (R189). -/
  | saveEnd (readsBackEqual : Bool)
  | softReset
  | setTime
  | readTime
  | setPrinter
  | retirePrinter
  | printerReport
  | readPrinter
  | silenceExpiry (slot : Nat)
  | stallExpiry (slot : Nat)
  | holdoffExpiry (slot : Nat) (cls : FaultClass)
  | setConditionMap
  | setFaultPolicy
  | clearFault
  | readFaults
  /-- The deadline of the callout record passes (R51). -/
  | escalation (record : Nat)
  | readCallouts
  | dispatchCallout
  | closeCallout
  | endService
  | setTenant
  | setAccount
  | setCredential
  | eraseCredential
  | setGuard
  | unlockAccount
  | lockoutExpiry (account : Nat)
  | adjustUsage
  | closePeriod
  | readAccount
  | readTenant
  | setClass
  | readClass
  | quote
  | submitJob
  | cancelJob
  | ticketExpiry (ticket : Nat)
  | takeGrants
  | jobDone
  | completionDeadline (ticket : Nat)
  | readTickets
  | setJobLimits
  | setTerminal
  | setLine
  | readTerminals
  /-- The answer window of the line's outstanding poll closes without a complete answer (R125). -/
  | answerWindowClose (line : Nat)
  /-- The answer to the line's outstanding poll is bad (R125). -/
  | badAnswer (line : Nat) (why : BadAnswer)
  | quietPauseEnd (line : Nat)
  /-- The polled terminal of the line answers IDLE; the commands below that name a line are its other
  good answers (R125, R131). -/
  | idle (line : Nat)
  | joinRequest (line : Nat) (serial : Nat)
  | ready (line : Nat)
  | recentlyLostExpiry (terminal : Nat)
  | badge (line : Nat) (toggle : Bool) (token : BitVec 64)
  | pin (line : Nat) (toggle : Bool) (digest : BitVec 32)
  | release (line : Nat) (toggle : Bool) (n : Nat)
  | releaseAll (line : Nat) (toggle : Bool)
  | cancel (line : Nat) (toggle : Bool) (n : Nat)
  | nextPage (line : Nat) (toggle : Bool)
  | logout (line : Nat) (toggle : Bool)
  | attend (line : Nat) (toggle : Bool)
  | serviceDone (line : Nat) (toggle : Bool)
  | unknownKey (line : Nat) (toggle : Bool) (code : Byte)
  | idleDeadline (terminal : Nat)
  | followUp (terminal : Nat)
  | setForecast
  | readSupplies
  | dayRollover
  | setStockKind
  | adjustStock
  | approveOrder
  | declineOrder
  | cancelOrder
  | receiveDelivery
  | overdueDeadline (order : Nat)
  | readStock
  | readOrders
  | mainPowerOn
  | externalReset
  | externalResetAssert
  | mainPowerLoss
  /-- VBAT dips below the threshold; the retained memory keeps its contents or loses them (R185). -/
  | batteryDip (contentsKept : Bool)
  deriving DecidableEq, Repr

end Sys2Proof
end

