-- ==== Sys2Proof/Decode.lean ====
section
/-! DEFINITION. The command a word of the opcode table spells. spec/opcode_table.json gives no row any
bits: the FC480 takes commands from its links and pins and has no instruction words, so no word spells
a command (log entry 20). -/

namespace Sys2Proof

/-- The command that the low `nbits` bits of `w` spell by the table: none, for every word. -/
def decodeTableWord (_nbits _w : Nat) : Option Instr := none

end Sys2Proof
end

