-- ==== Sys2Proof/Config.lean ====
section
/-! DEFINITION. What the data sheet fixes once for every FC480: capacities, codes and fixed times. -/

namespace Sys2Proof.Config

/-- Printer slots 0 to 127 (spec 00, Terms). -/
def printers : Nat := 128
/-- Condition map entries 0 to 47 (R23). -/
def mapEntries : Nat := 48
/-- Callout records 0 to 31 (R42). -/
def callouts : Nat := 32
/-- Tenants 0 to 63 (R61). -/
def tenants : Nat := 64
/-- Accounts 0 to 4095 (R62). -/
def accounts : Nat := 4096
/-- Rate classes 0 to 7 (R81). -/
def classes : Nat := 8
/-- Ticket slots 0 to 1023 (R96). -/
def tickets : Nat := 1024
/-- Tickets one release queue holds (R111). -/
def queueRoom : Nat := 8
/-- Entries the grant queue holds (R114). -/
def grantRoom : Nat := 32
/-- Entries the removal list holds (R103). -/
def removalRoom : Nat := 32
/-- Entries the exhaustion list holds (R92). -/
def exhaustionRoom : Nat := 16
/-- Floor lines 0 to 3 (R124). -/
def lines : Nat := 4
/-- Addresses 1 to 32 of a line (R123). -/
def addresses : Nat := 32
/-- Terminal positions 0 to 127 (R123). -/
def terminals : Nat := 128
/-- Stock kinds 0 to 15 (R158). -/
def stockKinds : Nat := 16
/-- Order records 0 to 63 (R163). -/
def orders : Nat := 64
/-- Frames the request queue holds (R174). -/
def requestRoom : Nat := 4
/-- The largest body length (R172, R177). -/
def maxBody : Nat := 1020
/-- UNLIMITED (R1). -/
def unlimited : Nat := 4294967295
/-- The largest value of a 32-bit total (R3, R63). -/
def max32 : Nat := 4294967295
/-- The largest value of a 16-bit count (R173). -/
def max16 : Nat := 65535
/-- The vendor code (R177). -/
def vendorCode : Nat := 0x4E5A
/-- The part code (R177). -/
def partCode : Nat := 0x0480
/-- The silicon revision (R177). -/
def revision : Nat := 0x03
/-- Store level at which STORE_HIGH is raised (R101). -/
def storeHighRaise : Nat := 896
/-- Store level at or above which the cause of STORE_HIGH lasts (R101). -/
def storeHighCause : Nat := 768
/-- Days to empty of a channel that nothing wears down (R149). -/
def farDays : Nat := 999
/-- Seconds in a day (R164, R186). -/
def daySeconds : Nat := 86400
/-- Seconds a QUIET line pauses between two cycles (R126). -/
def pauseSeconds : Nat := 2
/-- Seconds a lost terminal may rejoin quickly (R130). -/
def recentlyLost : Nat := 60
/-- Seconds from the delivery of a RESULT or LOCKED screen to its follow-up (R132). -/
def followUpSeconds : Nat := 3

end Sys2Proof.Config
end

