-- ==== Sys2Proof/Machine/Table.lean ====
section
/-! DEFINITION. Tables of records indexed by number (spec 00, Collections), held sparsely: only the
records that differ from the table's default are listed, in rising order of number. -/

namespace Sys2Proof.Machine

/-- A table of records. A number that is not listed holds the table's default record, which every
access names; equal tables are equal data. -/
structure Table (α : Type) where
  entries : List (Nat × α)
  deriving DecidableEq, Repr

/-- The table in which every record is the default. -/
def Table.empty {α : Type} : Table α := ⟨[]⟩

def Table.find {α : Type} (d : α) : List (Nat × α) → Nat → α
  | [], _ => d
  | (k, v) :: rest, n => if k = n then v else Table.find d rest n

/-- The record of number `n`. -/
def Table.get {α : Type} (d : α) (t : Table α) (n : Nat) : α := Table.find d t.entries n

def Table.insert {α : Type} (n : Nat) (v : α) : List (Nat × α) → List (Nat × α)
  | [] => [(n, v)]
  | (k, w) :: rest => if n < k then (n, v) :: (k, w) :: rest else (k, w) :: Table.insert n v rest

def Table.erase {α : Type} (n : Nat) : List (Nat × α) → List (Nat × α)
  | [] => []
  | (k, w) :: rest => if k = n then Table.erase n rest else (k, w) :: Table.erase n rest

/-- The table with the record of number `n` replaced. Writing the default removes the entry. -/
def Table.put {α : Type} [DecidableEq α] (d : α) (t : Table α) (n : Nat) (v : α) : Table α :=
  if v = d then ⟨Table.erase n t.entries⟩ else ⟨Table.insert n v (Table.erase n t.entries)⟩

/-- The table with the record of number `n` changed by `f`. -/
def Table.modify {α : Type} [DecidableEq α] (d : α) (t : Table α) (n : Nat) (f : α → α) : Table α :=
  Table.put d t n (f (Table.get d t n))

/-- The table with every record changed by `f`, for an `f` that leaves the default as it is. -/
def Table.mapAll {α : Type} [DecidableEq α] (d : α) (t : Table α) (f : α → α) : Table α :=
  ⟨(t.entries.map fun e => (e.1, f e.2)).filter fun e => e.2 ≠ d⟩

/-- The canonical form: numbers strictly rising, and no entry equal to the default. -/
def Table.wf {α : Type} [DecidableEq α] (d : α) (t : Table α) : Bool :=
  decide (t.entries.Pairwise fun a b => a.1 < b.1) && t.entries.all fun e => e.2 ≠ d

/-- The numbers of the records that differ from the default, in rising order. -/
def Table.keys {α : Type} (t : Table α) : List Nat := t.entries.map Prod.fst

end Sys2Proof.Machine
end

