-- ==== Sys2Proof/Machine/State.lean ====
section
/-! DEFINITION. The state of the FC480: every record the data sheet gives it, and the state right after
its first start at main power-on (log entry 3). -/

namespace Sys2Proof.Machine

/-! ## Channels and classes -/

/-- The six supply channels, in the order of the level bytes (R2, 1.2). -/
inductive Channel where
  | k | c | m | y | drum | waste
  deriving DecidableEq, Repr

/-- One value for each channel. -/
structure ByChannel (α : Type) where
  k : α
  c : α
  m : α
  y : α
  drum : α
  waste : α
  deriving DecidableEq, Repr

/-- One value for each fault class. -/
structure ByClass (α : Type) where
  jam : α
  coverOpen : α
  paperOut : α
  supplyEmpty : α
  supplyAbsent : α
  mechanism : α
  silence : α
  stall : α
  counterRegress : α
  consumption : α
  serviceDue : α
  other : α
  deriving DecidableEq, Repr

/-! ## Settings records (the settings image, spec 11) -/

/-- The settings record of a printer slot (R2); the defaults are those of the default image. -/
structure PrinterSettings where
  enabled : Bool := false
  rateClass : Nat := 0
  group : Nat := 0
  name : Option Text := none
  channels : ByChannel Bool := ⟨false, false, false, false, false, false⟩
  kinds : ByChannel (Option Nat) := ⟨none, none, none, none, none, none⟩
  reportInterval : Nat := 60
  missedLimit : Nat := 3
  serviceInterval : Nat := 0
  deriving DecidableEq, Repr

/-- A condition map entry in use (R23). -/
structure MapEntry where
  codeLow : Nat
  codeHigh : Nat
  cls : FaultClass
  channel : Option Channel
  deriving DecidableEq, Repr

/-- The modes of a fault policy (R28). -/
inductive FaultMode where
  | latched | retry | report | ignore
  deriving DecidableEq, Repr

/-- The policy of a fault class (R28): times in seconds (retry) and minutes (window, response). -/
structure Policy where
  mode : FaultMode
  callout : Bool
  retryTime : Nat
  limit : Nat
  window : Nat
  response : Nat
  deriving DecidableEq, Repr

/-- The policies of the default settings image (R28). -/
def defaultPolicies : ByClass Policy where
  jam := ⟨.retry, true, 120, 3, 60, 60⟩
  coverOpen := ⟨.retry, false, 300, 7, 60, 240⟩
  paperOut := ⟨.report, false, 60, 7, 60, 240⟩
  supplyEmpty := ⟨.latched, false, 60, 1, 60, 240⟩
  supplyAbsent := ⟨.latched, false, 60, 1, 60, 240⟩
  mechanism := ⟨.latched, true, 60, 1, 60, 120⟩
  silence := ⟨.retry, true, 300, 3, 60, 120⟩
  stall := ⟨.retry, true, 180, 2, 60, 60⟩
  counterRegress := ⟨.report, false, 60, 1, 60, 240⟩
  consumption := ⟨.report, false, 60, 1, 60, 240⟩
  serviceDue := ⟨.report, false, 60, 1, 60, 1440⟩
  other := ⟨.report, false, 60, 1, 60, 240⟩

/-- The settings record of a tenant (R61). -/
structure TenantSettings where
  active : Bool := false
  allowance : Nat := Config.unlimited
  colour : Bool := true
  holdHours : Nat := 24
  deriving DecidableEq, Repr

/-- The role of an account (R62). -/
inductive Role where
  | user | tech
  deriving DecidableEq, Repr

/-- The settings record of an account (R62). -/
structure AccountSettings where
  active : Bool := false
  tenant : Nat := 0
  role : Role := .user
  allowance : Nat := Config.unlimited
  colour : Bool := true
  pinRequired : Bool := false
  heldLimit : Nat := 16
  deriving DecidableEq, Repr

/-- The credential map entries of an account (R70). -/
structure Credentials where
  token1 : Option (BitVec 64) := none
  token2 : Option (BitVec 64) := none
  digest : Option (BitVec 32) := none
  deriving DecidableEq, Repr

/-- The guard record (R73). -/
structure Guard where
  frozen : Bool := false
  failureLimit : Nat := 5
  lockoutMinutes : Nat := 15
  deriving DecidableEq, Repr

/-- A class rate record (R81). -/
structure Rates where
  rm : Nat := 0
  rc : Nat := 0
  rs : Nat := 0
  dc : Nat := 0
  lf : Nat := 16
  mc : Nat := 0
  deriving DecidableEq, Repr

/-- The settings record of a terminal position (R123). -/
structure TerminalSettings where
  configured : Bool := false
  printer : Nat := 0
  expected : Option Nat := none
  deriving DecidableEq, Repr

/-- The settings record of a floor line (R124): `quiet` is the mode QUIET. -/
structure LineSettings where
  quiet : Bool := false
  idleTimeout : Nat := 45
  deriving DecidableEq, Repr

/-- The forecast settings (R154). -/
structure ForecastSettings where
  shift : Nat := 3
  dayShift : Nat := 2
  swap : Nat := 30
  lowWarning : Nat := 5
  floorK : Nat := 10
  floorColour : Nat := 5
  floorDrum : Nat := 200
  floorWaste : Nat := 20
  rolloverHour : Nat := 3
  deriving DecidableEq, Repr

/-- The settings record of a stock kind (R158). -/
structure KindSettings where
  configured : Bool := false
  supplier : Nat := 0
  reorderPoint : Nat := 0
  orderUpTo : Nat := 1
  packSize : Nat := 1
  leadTime : Nat := 7
  grace : Nat := 2
  deriving DecidableEq, Repr

/-- The attention flags, in the order of the table of R179. -/
inductive Flag where
  | stateChanged | faultReport | supplyLow | supplyOut | unstockedInstall
  | terminalLost | terminalJoined
  | calloutOpen | escalated | revisit
  | grantsWaiting | jobTimeout | expired | storeHigh
  | orderProposed | orderOverdue | orderBlocked
  | accountLocked | quotaExhausted
  | started | retainedLost | batteryLow | storeInvalid | settingsSaved | storeFailed | clockInvalid
  deriving DecidableEq, Repr

/-- The seven groups of attention flags (R179). -/
inductive FlagGroup where
  | printer | terminal | callout | job | order | account | system
  deriving DecidableEq, Repr

/-- The 34 attention enables (R181). The individual enables are indexed by flag number, the group
enables by group number; both tables have the default true, the enable set. -/
structure Enables where
  global : Bool := true
  groups : Table Bool := ⟨[]⟩
  flags : Table Bool := ⟨[]⟩
  deriving DecidableEq, Repr

/-- The settings image (spec 11, 11.2). The defaults are those of the default image. -/
structure Settings where
  printers : Table PrinterSettings := ⟨[]⟩
  conditionMap : Table (Option MapEntry) := ⟨[]⟩
  policies : ByClass Policy := defaultPolicies
  tenants : Table TenantSettings := ⟨[]⟩
  accounts : Table AccountSettings := ⟨[]⟩
  credentials : Table Credentials := ⟨[]⟩
  guard : Guard := {}
  rates : Table Rates := ⟨[]⟩
  completionMinutes : Nat := 20
  stallTime : Nat := 300
  terminals : Table TerminalSettings := ⟨[]⟩
  lines : Table LineSettings := ⟨[]⟩
  forecast : ForecastSettings := {}
  kinds : Table KindSettings := ⟨[]⟩
  enables : Enables := {}
  deriving DecidableEq, Repr

/-! ## The settings store and the starts (spec 11) -/

/-- The outcome of the last save since the last start (R187). -/
inductive SaveOutcome where
  | none | saved | failed
  deriving DecidableEq, Repr

/-- The settings store (R188, R189). `saving` holds the working copy being written while the store is
SAVING; `checksumGood` says whether the stored image's checksum is correct (log entry 19). -/
structure Store where
  image : Settings := {}
  checksumGood : Bool := false
  saving : Option Settings := none
  lastSave : SaveOutcome := .none
  deriving DecidableEq, Repr

/-- The cause of the last start (R187). -/
inductive StartCause where
  | mainPower | externalReset | softReset
  deriving DecidableEq, Repr

/-- What READ TIME shows of the last start (R187). -/
structure StartInfo where
  cause : StartCause := .mainPower
  retainedLoss : Bool := true
  imageInvalid : Bool := true
  deriving DecidableEq, Repr

/-! ## Host link and attention (spec 10) -/

/-- A frame without its sync, length and check bytes (R172). -/
structure Frame where
  kind : Nat
  tag : Byte
  body : List Byte
  deriving DecidableEq, Repr

/-- The receiver of the host link (R173). HEADER holds the header bytes taken, BODY the header, the body
bytes taken and how many are still wanted, CHECK the header and body and the check bytes taken. -/
inductive Receiver where
  | hunt
  | header (got : List Byte)
  | body (header : List Byte) (got : List Byte) (left : Nat)
  | check (header : List Byte) (body : List Byte) (got : List Byte)
  deriving DecidableEq, Repr

/-- The host link (R173, R174). -/
structure Link where
  receiver : Receiver := .hunt
  queue : List Frame := []
  reply : Option Frame := none
  checkCount : Nat := 0
  lengthCount : Nat := 0
  gapCount : Nat := 0
  framingCount : Nat := 0
  overrunCount : Nat := 0
  deriving DecidableEq, Repr

/-- The attention unit (R178): the stamp of each set flag instance, indexed by flag number * 128 + index,
and the raise counter. -/
structure Attention where
  stamps : Table (Option (BitVec 32)) := ⟨[]⟩
  counter : BitVec 32 := 0
  deriving DecidableEq, Repr

/-! ## Printers (spec 01, 02, 08) -/

/-- Three side and sheet totals (R3). -/
structure Totals where
  mono : Nat := 0
  colour : Nat := 0
  sheets : Nat := 0
  deriving DecidableEq, Repr

/-- The printer states (R12). -/
inductive PrinterState where
  | unconfigured | retired | service | faulted | holdoff | degradedMono | online
  deriving DecidableEq, Repr

/-- A fault record (R30). -/
structure FaultRecord where
  active : Bool := false
  latched : Bool := false
  holdoff : Option Time := none
  count : Nat := 0
  window : Option Time := none
  code : Option Nat := none
  deriving DecidableEq, Repr

/-- A forecast record (R143): UNSET and absent are `none`. -/
structure Forecast where
  p : Option Nat := none
  pk : Option Nat := none
  anchor : Nat := 0
  rate : Option Nat := none
  lastSample : Option Nat := none
  days : Option Nat := none
  consuming : Bool := false
  deriving DecidableEq, Repr

/-- The retained records of a printer slot: the runtime record (R3), the fault records (R30) and absence
marks (R25), the forecast and throughput records (R143, R144) and the low and out causes (R151). -/
structure Printer where
  lastTotals : Option Totals := none
  missed : Nat := 0
  silenceDeadline : Option Time := none
  inService : Bool := false
  retired : Bool := false
  printing : Totals := {}
  lastAdvance : Option Time := none
  dailyAll : Nat := 0
  dailyColour : Nat := 0
  sinceService : Nat := 0
  derived : PrinterState := .unconfigured
  faults : ByClass FaultRecord := ⟨{}, {}, {}, {}, {}, {}, {}, {}, {}, {}, {}, {}⟩
  marks : ByChannel Bool := ⟨false, false, false, false, false, false⟩
  forecasts : ByChannel Forecast := ⟨{}, {}, {}, {}, {}, {}⟩
  throughputAll : Option Nat := none
  throughputColour : Option Nat := none
  low : Bool := false
  out : Bool := false
  deriving DecidableEq, Repr

/-! ## Callouts (spec 03) -/

/-- Where a callout record stands (R42): its deadline in OPEN and DISPATCHED, its technician in
ATTENDED. -/
inductive CalloutPhase where
  | opened (deadline : Time)
  | dispatched (deadline : Time)
  | attended (technician : Nat)
  deriving DecidableEq, Repr

/-- The state of a callout record, without what the record holds in it (R42, R133). -/
inductive CalloutState where
  | opened | dispatched | attended
  deriving DecidableEq, Repr

/-- A callout record in use (R42). -/
structure Callout where
  serial : BitVec 16
  printer : Nat
  classes : ByClass Bool
  firstCode : Option Nat
  openedAt : Time
  openedWall : Option Time
  phase : CalloutPhase
  level : Nat
  revisits : Nat
  deriving DecidableEq, Repr

/-- An entry of the pending list (R44). -/
structure PendingEntry where
  printer : Nat
  cls : FaultClass
  code : Option Nat
  joined : Time
  deriving DecidableEq, Repr

/-! ## Accounts and charging (spec 04, 05) -/

/-- The runtime record of a tenant (R63). -/
structure TenantTotals where
  used : Nat := 0
  reserved : Nat := 0
  deriving DecidableEq, Repr

/-- The runtime record of an account (R63). -/
structure AccountTotals where
  used : Nat := 0
  reserved : Nat := 0
  held : Nat := 0
  failures : Nat := 0
  lockedUntil : Option Time := none
  deriving DecidableEq, Repr

/-- The budget a settlement crossed (R92). -/
inductive Crossed where
  | account | tenant | both
  deriving DecidableEq, Repr

/-- An entry of the exhaustion list (R92). -/
structure Exhaustion where
  account : Nat
  tenant : Nat
  crossed : Crossed
  charge : Nat
  reservation : Nat
  at_ : Time
  deriving DecidableEq, Repr

/-! ## Tickets, queues and grants (spec 06) -/

/-- The target of a ticket (R96). -/
inductive Target where
  | printer (slot : Nat)
  | group (number : Nat)
  deriving DecidableEq, Repr

/-- The size class of a job (R83). -/
inductive SizeClass where
  | standard | large
  deriving DecidableEq, Repr

/-- The release outcome codes (R107). -/
inductive ReleaseOutcome where
  | ticketGone | notHere | printerUnavailable | colourUnavailable | colourNotPermitted
  | queueFull | quotaAccount | quotaTenant | released
  deriving DecidableEq, Repr

/-- What a ticket holds from its admission to its settlement or return: the printer of its queue, its
reservation and its class snapshot (R87, R96). -/
structure Admitted where
  printer : Nat
  reservation : Nat
  snapClass : Nat
  snapRates : Rates
  deriving DecidableEq, Repr

/-- The state of a ticket with the fields present in it (R96). -/
inductive TicketPhase where
  | held
  | queued (a : Admitted)
  | printing (a : Admitted) (taken : Bool) (deadline : Time)
  deriving DecidableEq, Repr

/-- A ticket record (R96). -/
structure Ticket where
  jobId : Nat
  owner : Nat
  target : Target
  mono : Nat
  colour : Nat
  sheets : Nat
  size : SizeClass
  title : Option Text
  sequence : BitVec 32
  expiry : Time
  phase : TicketPhase
  reprint : Bool
  lastRefusal : Option ReleaseOutcome
  deriving DecidableEq, Repr

/-- A grant entry (R113). -/
structure Grant where
  jobId : Nat
  ticket : Nat
  printer : Nat
  deriving DecidableEq, Repr

/-- The reasons of the removal list (R103). -/
inductive RemovalReason where
  | expired | terminalCancel | aborted | timeoutSettled | serviceSettled | deactivated
  | loadRemoved | loadSettled
  deriving DecidableEq, Repr

/-- An entry of the removal list (R103). -/
structure Removal where
  jobId : Nat
  owner : Nat
  ticket : Nat
  reason : RemovalReason
  charge : Option Nat
  at_ : Time
  deriving DecidableEq, Repr

/-! ## Terminals and lines (spec 07) -/

/-- A reference of a listing page: ticket slot and job id (R105). -/
structure PageRef where
  ticket : Nat
  jobId : Nat
  deriving DecidableEq, Repr

/-- The availability mark of a listing entry (R106). -/
inductive Availability where
  | atOther | colourUnavailable | available
  deriving DecidableEq, Repr

/-- The readiness of a listing's printer (R106). -/
inductive Readiness where
  | taking | monoOnly | notTaking
  deriving DecidableEq, Repr

/-- A job on a screen: its title, or its job id when it has none (R106, R133). -/
inductive JobName where
  | title (t : Text)
  | jobId (n : Nat)
  deriving DecidableEq, Repr

/-- An entry of a listing page (R106). -/
structure PageEntry where
  name : JobName
  sides : Nat
  sheets : Nat
  colourMark : Bool
  estimate : Nat
  reprint : Bool
  availability : Availability
  deriving DecidableEq, Repr

/-- A listing page (R105, R106); a budget of `none` is UNLIMITED. -/
structure Page where
  entries : List PageEntry
  number : Nat
  count : Nat
  eligible : Nat
  budget : Option Nat
  readiness : Readiness
  deriving DecidableEq, Repr

/-- The outcomes of ATTEND and SERVICE DONE (R53, R55). -/
inductive ServiceOutcome where
  | notAvailable | alreadyInService | attended | checkedIn | notInService | revisit | done
  deriving DecidableEq, Repr

/-- The code of a RESULT screen (R133). -/
inductive ResultCode where
  | release (o : ReleaseOutcome)
  | unknownBadge
  | pinNotSet
  deriving DecidableEq, Repr

/-- What a RESULT screen adds to its code: nothing, the released ticket's name, or what RELEASE ALL
did (R133). -/
inductive ResultDetail where
  | nothing
  | job (name : Option JobName)
  | walk (released : Nat) (first : Option ReleaseOutcome)
  deriving DecidableEq, Repr

/-- The callout line of a SERVICE screen (R133): the record, the position in the pending list, or
neither. -/
inductive ServiceCallout where
  | record (serial : BitVec 16) (state : CalloutState) (classes : ByClass Bool) (level : Nat)
      (minutes : Option Nat)
  | pendingAt (position : Nat)
  | neither
  deriving DecidableEq, Repr

/-- The reason of a LOCKED screen (R133). -/
inductive LockReason where
  | notUsable | lockedOut
  deriving DecidableEq, Repr

/-- What a WELCOME screen calls the bound printer (R133): its display name, or its slot number when it has
none. -/
inductive PrinterTitle where
  | name (text : Text)
  | slot (number : Nat)
  deriving DecidableEq, Repr

/-- The six screens with their contents (R133). -/
inductive Screen where
  | welcome (title : PrinterTitle) (group : Nat)
  | pinEntry (failuresLeft : Option Nat)
  | jobList (page : Page)
  | result (code : Option ResultCode) (detail : ResultDetail)
  | locked (reason : LockReason) (minutes : Option Nat)
  | service (slot : Nat) (name : Option Text) (state : PrinterState) (callout : ServiceCallout)
      (last : Option ServiceOutcome)
  deriving DecidableEq, Repr

/-- The follow-up kinds (R132). -/
inductive FollowUp where
  | welcome
  | jobList (page : Nat)
  deriving DecidableEq, Repr

/-- A pending screen, the follow-up its maker gave, and whether the outstanding POLL carries it
(R132). -/
structure PendingScreen where
  screen : Screen
  follow : Option FollowUp
  carried : Bool
  deriving DecidableEq, Repr

/-- The session of a terminal (R134). -/
inductive Session where
  | none
  | pinWait (account : Nat) (idle : Time)
  | listing (account : Nat) (idle : Time) (page : Nat) (refs : List PageRef)
  | serviceMenu (account : Nat) (idle : Time) (last : Option ServiceOutcome)
  deriving DecidableEq, Repr

/-- The presence of a terminal (R127). -/
inductive Presence where
  | absent | joining | present
  deriving DecidableEq, Repr

/-- The runtime record of a terminal position (R127). `window` holds the last eight outcomes, oldest
first, true for good. -/
structure Terminal where
  presence : Presence := .absent
  lostDeadline : Option Time := none
  joinPolls : Nat := 0
  joinedSerial : Option Nat := none
  refusedSerial : Option Nat := none
  window : List Bool := [true, true, true, true, true, true, true, true]
  ack : Bool := false
  pending : Option PendingScreen := none
  follow : Option (Time × FollowUp) := none
  session : Session := .none
  deriving DecidableEq, Repr

/-- The message of a poll (R128 to R130). -/
inductive PollMessage where
  | poll (joined : Bool) (ack : Bool) (screen : Option Screen)
  | joinGrant (name : Option Text) (group : Nat) (ack : Bool)
  deriving DecidableEq, Repr

/-- What a line is doing: no configured address, one poll outstanding, or pausing before the next cycle
until a deadline (R125, R126). -/
inductive LinePhase where
  | silent
  | polling (address : Nat) (message : PollMessage)
  | pausing (until_ : Time)
  deriving DecidableEq, Repr

/-- The runtime record of a line (R126, R141). -/
structure Line where
  phase : LinePhase := .silent
  cycles : Nat := 0
  deriving DecidableEq, Repr

/-! ## Stock and orders (spec 09) -/

/-- The runtime record of a stock kind (R160), with its blocked state (R161). -/
structure Kind where
  onHand : Nat := 0
  hold : Bool := false
  blocked : Bool := false
  deriving DecidableEq, Repr

/-- What an order holds once it is placed (R163). -/
structure Placed where
  at_ : Time
  wall : Option Time
  overdue : Time
  marked : Bool
  deriving DecidableEq, Repr

/-- The state of an order (R163). -/
inductive OrderPhase where
  | proposed
  | placed (p : Placed)
  | partially (p : Placed)
  deriving DecidableEq, Repr

/-- An order record in use (R163). -/
structure Order where
  serial : BitVec 16
  kind : Nat
  quantity : Nat
  received : Nat
  phase : OrderPhase
  proposedAt : Time
  proposedWall : Option Time
  deriving DecidableEq, Repr

/-! ## The whole part -/

/-- Every block of the FC480 but the host link. -/
structure Device where
  /- pins, clocks and the retained domain (spec 11) -/
  mainPower : Bool := true
  rstnLow : Bool := false
  uptime : Time := 0
  wall : Time := 0
  wallValid : Bool := false
  markerValid : Bool := true
  comparator : Bool := false
  /- settings -/
  work : Settings := {}
  store : Store := {}
  start : StartInfo := {}
  guardLatch : Bool := false
  /- attention -/
  attention : Attention := {}
  /- printers -/
  printers : Table Printer := ⟨[]⟩
  nextRollover : Option Time := none
  /- callouts -/
  callouts : Table (Option Callout) := ⟨[]⟩
  calloutSerial : BitVec 16 := 0
  pendingList : List PendingEntry := []
  /- accounts and charging -/
  tenants : Table TenantTotals := ⟨[]⟩
  accounts : Table AccountTotals := ⟨[]⟩
  period : BitVec 16 := 0
  exhaustions : List Exhaustion := []
  exhaustionsDropped : Nat := 0
  /- tickets -/
  tickets : Table (Option Ticket) := ⟨[]⟩
  nextSequence : BitVec 32 := 0
  queues : Table (List Nat) := ⟨[]⟩
  grants : List Grant := []
  waiting : List Nat := []
  removals : List Removal := []
  removalsDropped : Nat := 0
  /- terminals -/
  terminals : Table Terminal := ⟨[]⟩
  lines : Table Line := ⟨[]⟩
  /- stock -/
  stock : Table Kind := ⟨[]⟩
  orders : Table (Option Order) := ⟨[]⟩
  orderSerial : BitVec 16 := 0
  deriving DecidableEq, Repr

/-- The FC480 with its host link and the commands that wait, first in, first out. -/
structure State where
  link : Link
  device : Device
  pending : List Instr
  deriving DecidableEq, Repr

/-- The machine raises no fault: the spec gives every command an effect, and answers every refused
request with a status byte. -/
inductive Fault where
  /-- Raised by nothing; it keeps the type inhabited. Safe. -/
  | unused
  deriving DecidableEq, Repr

/-- The reasons for which the model declines a command. -/
inductive Refusal where
  /-- Raised by `exec` for a command that has no meaning yet; no command is left so. Safe. -/
  | notModelled (mnemonic : String)
  deriving DecidableEq, Repr

/-- The part right after its first start at main power-on, with the validity marker found bad and the
stored image's checksum found wrong: every record at its initial value (R190, log entry 3). The set
flags are STARTED, RETAINED_LOST, STORE_INVALID and CLOCK_INVALID, raised in this order. -/
def State.reset : State where
  link := {}
  device := { attention :=
    { stamps := ⟨[(19 * 128, some 1), (20 * 128, some 2), (22 * 128, some 3), (25 * 128, some 4)]⟩
      counter := 4 } }
  pending := []

end Sys2Proof.Machine
end

