-- ==== Sys2Proof/Machine/Operands.lean ====
section
/-! DEFINITION. The fields of request and reply bodies (R172, R174 to R176): numbers low byte first,
enumerated bytes numbered from 0 in the listed order, presence bytes, texts and lists. -/

namespace Sys2Proof.Machine

/-! ## Numbers -/

/-- The low `w` bytes of a number, low byte first (R172). -/
def toBytes : (w : Nat) → Nat → List Byte
  | 0, _ => []
  | w + 1, n => BitVec.ofNat 8 n :: toBytes w (n / 256)

/-- The number that bytes spell, low byte first (R172). -/
def ofBytes : List Byte → Nat
  | [] => 0
  | b :: bs => b.toNat + 256 * ofBytes bs

/-- A signed number in two's complement of `w` bytes (R172). -/
def toBytesInt (w : Nat) (i : Int) : List Byte := toBytes w (i % ((256 : Int) ^ w)).toNat

/-- The signed number that a two's complement field of `w` bytes spells (R172). -/
def signedOf (w : Nat) (n : Nat) : Int := if 2 * n < 256 ^ w then n else (n : Int) - 256 ^ w

/-- Takes number fields of the given widths from the front of a body. -/
def takeFields : List Nat → List Byte → Option (List Nat × List Byte)
  | [], b => some ([], b)
  | w :: ws, b =>
    if b.length < w then none
    else match takeFields ws (b.drop w) with
      | none => none
      | some (vs, rest) => some (ofBytes (b.take w) :: vs, rest)

/-- The fields of a body made of number fields of the given widths alone; `none` for a body of any other
length (R174, R176). -/
def fields (ws : List Nat) (body : List Byte) : Option (List Nat) :=
  match takeFields ws body with
  | some (vs, []) => some vs
  | _ => none

/-! ## Bytes of enumerated and optional fields (R176, log entries 5 to 7) -/

/-- A two-valued field whose rule lists the affirmative first (true, set, yes): 0 is yes, 1 is no. -/
def boolByte (b : Bool) : Byte := if b then 0 else 1

def boolOf : Nat → Option Bool
  | 0 => some true
  | 1 => some false
  | _ => none

/-- An optional number field of `w` bytes: presence byte 1 and the value, or 0 and zero bytes (R176). -/
def optBytes (w : Nat) : Option Nat → List Byte
  | some v => 1 :: toBytes w v
  | none => 0 :: toBytes w 0

/-- The value of an optional field from its presence byte and value; `none` for a presence byte other
than 0 or 1, which is a field outside its range (R176). DESIGN CHOICE (log entry 37): behind presence byte 0
the value's bytes are not read, whatever they hold; R176 says only that they are sent as 0. -/
def optOf : Nat → Nat → Option (Option Nat)
  | 0, _ => some none
  | 1, v => some (some v)
  | _, _ => none

/-- A text field: length byte and characters (R176). -/
def textBytes (t : Text) : List Byte := BitVec.ofNat 8 t.length :: t

/-- An optional text field: presence byte, length byte, characters (R176). -/
def optTextBytes : Option Text → List Byte
  | some t => 1 :: textBytes t
  | none => [0, 0]

/-- A list field: count byte and items (R176, log entry 9). -/
def listBytes (items : List (List Byte)) : List Byte :=
  BitVec.ofNat 8 items.length :: items.flatten

/-- A character that a text may hold: 20h to 7Eh (R172). -/
def isChar (b : Byte) : Bool := 0x20 ≤ b.toNat && b.toNat ≤ 0x7E

/-! ## Status bytes (R174) -/

inductive Status where
  | ok | unknownKind | badLength | badField | notFound | state | full | duplicate | locked
  | tooLate | busy | stillActive
  deriving DecidableEq, Repr

def Status.byte : Status → Byte
  | .ok => 0x00
  | .unknownKind => 0x01
  | .badLength => 0x02
  | .badField => 0x03
  | .notFound => 0x04
  | .state => 0x05
  | .full => 0x06
  | .duplicate => 0x07
  | .locked => 0x08
  | .tooLate => 0x09
  | .busy => 0x0A
  | .stillActive => 0x0B

/-- A request refused without effect: the reply is its status byte. -/
def refuse (st : Status) (d : Device) : Device × List Byte := (d, [st.byte])

/-- A request taken, answered OK with the given reply fields. -/
def answer (d : Device) (reply : List Byte) : Device × List Byte := (d, Status.ok.byte :: reply)

/-! ## Channels -/

def Channel.all : List Channel := [.k, .c, .m, .y, .drum, .waste]

def Channel.number : Channel → Nat
  | .k => 0
  | .c => 1
  | .m => 2
  | .y => 3
  | .drum => 4
  | .waste => 5

def Channel.ofNumber : Nat → Option Channel
  | 0 => some .k
  | 1 => some .c
  | 2 => some .m
  | 3 => some .y
  | 4 => some .drum
  | 5 => some .waste
  | _ => none

/-- C, M and Y (spec 00, Terms). -/
def Channel.isColour : Channel → Bool
  | .c | .m | .y => true
  | .k | .drum | .waste => false

/-- K, DRUM and WASTE (spec 00, Terms). -/
def Channel.isEssential (ch : Channel) : Bool := !ch.isColour

def ByChannel.get {α : Type} (b : ByChannel α) : Channel → α
  | .k => b.k
  | .c => b.c
  | .m => b.m
  | .y => b.y
  | .drum => b.drum
  | .waste => b.waste

def ByChannel.set {α : Type} (b : ByChannel α) (v : α) : Channel → ByChannel α
  | .k => { b with k := v }
  | .c => { b with c := v }
  | .m => { b with m := v }
  | .y => { b with y := v }
  | .drum => { b with drum := v }
  | .waste => { b with waste := v }

def ByChannel.ofFn {α : Type} (f : Channel → α) : ByChannel α :=
  ⟨f .k, f .c, f .m, f .y, f .drum, f .waste⟩

/-! ## Fault classes -/

end Sys2Proof.Machine

namespace Sys2Proof

/-- The classes in the order of the policy table of R28, the class order of R36 and R55. -/
def FaultClass.all : List FaultClass :=
  [.jam, .coverOpen, .paperOut, .supplyEmpty, .supplyAbsent, .mechanism, .silence, .stall,
    .counterRegress, .consumption, .serviceDue, .other]

/-- The byte of a class: its place in the defining table of R21 (log entry 7). -/
def FaultClass.number : FaultClass → Nat
  | .jam => 0
  | .coverOpen => 1
  | .paperOut => 2
  | .supplyAbsent => 3
  | .mechanism => 4
  | .other => 5
  | .supplyEmpty => 6
  | .silence => 7
  | .stall => 8
  | .counterRegress => 9
  | .consumption => 10
  | .serviceDue => 11

def FaultClass.ofNumber : Nat → Option FaultClass
  | 0 => some .jam
  | 1 => some .coverOpen
  | 2 => some .paperOut
  | 3 => some .supplyAbsent
  | 4 => some .mechanism
  | 5 => some .other
  | 6 => some .supplyEmpty
  | 7 => some .silence
  | 8 => some .stall
  | 9 => some .counterRegress
  | 10 => some .consumption
  | 11 => some .serviceDue
  | _ => none

/-- The six classes the condition map may name (R23). -/
def FaultClass.isMapped : FaultClass → Bool
  | .jam | .coverOpen | .paperOut | .supplyAbsent | .mechanism | .other => true
  | .supplyEmpty | .silence | .stall | .counterRegress | .consumption | .serviceDue => false

end Sys2Proof

namespace Sys2Proof.Machine

def ByClass.get {α : Type} (b : ByClass α) : FaultClass → α
  | .jam => b.jam
  | .coverOpen => b.coverOpen
  | .paperOut => b.paperOut
  | .supplyEmpty => b.supplyEmpty
  | .supplyAbsent => b.supplyAbsent
  | .mechanism => b.mechanism
  | .silence => b.silence
  | .stall => b.stall
  | .counterRegress => b.counterRegress
  | .consumption => b.consumption
  | .serviceDue => b.serviceDue
  | .other => b.other

def ByClass.set {α : Type} (b : ByClass α) (v : α) : FaultClass → ByClass α
  | .jam => { b with jam := v }
  | .coverOpen => { b with coverOpen := v }
  | .paperOut => { b with paperOut := v }
  | .supplyEmpty => { b with supplyEmpty := v }
  | .supplyAbsent => { b with supplyAbsent := v }
  | .mechanism => { b with mechanism := v }
  | .silence => { b with silence := v }
  | .stall => { b with stall := v }
  | .counterRegress => { b with counterRegress := v }
  | .consumption => { b with consumption := v }
  | .serviceDue => { b with serviceDue := v }
  | .other => { b with other := v }

def ByClass.ofFn {α : Type} (f : FaultClass → α) : ByClass α :=
  ⟨f .jam, f .coverOpen, f .paperOut, f .supplyEmpty, f .supplyAbsent, f .mechanism, f .silence,
    f .stall, f .counterRegress, f .consumption, f .serviceDue, f .other⟩

/-- The classes of a set, in the order of R28. -/
def ByClass.members (b : ByClass Bool) : List FaultClass := FaultClass.all.filter b.get

/-! ## Sets, as lists of their members (log entry 6) -/

def channelSetBytes (b : ByChannel Bool) : List Byte :=
  listBytes ((Channel.all.filter b.get).map fun ch => toBytes 1 ch.number)

/-- The channel set a list of channel bytes names; `none` where a byte names no channel. -/
def channelSetOf : List Byte → Option (ByChannel Bool)
  | [] => some ⟨false, false, false, false, false, false⟩
  | b :: bs =>
    match Channel.ofNumber b.toNat, channelSetOf bs with
    | some ch, some set => some (set.set true ch)
    | _, _ => none

def classSetBytes (b : ByClass Bool) : List Byte :=
  listBytes (b.members.map fun cls => toBytes 1 cls.number)

/-! ## The other enumerated fields -/

def FaultMode.number : FaultMode → Nat
  | .latched => 0
  | .retry => 1
  | .report => 2
  | .ignore => 3

def FaultMode.ofNumber : Nat → Option FaultMode
  | 0 => some .latched
  | 1 => some .retry
  | 2 => some .report
  | 3 => some .ignore
  | _ => none

/-- R12 lists UNCONFIGURED before the numbered states. -/
def PrinterState.number : PrinterState → Nat
  | .unconfigured => 0
  | .retired => 1
  | .service => 2
  | .faulted => 3
  | .holdoff => 4
  | .degradedMono => 5
  | .online => 6

def Role.number : Role → Nat
  | .user => 0
  | .tech => 1

def Role.ofNumber : Nat → Option Role
  | 0 => some .user
  | 1 => some .tech
  | _ => none

def SizeClass.number : SizeClass → Nat
  | .standard => 0
  | .large => 1

def SizeClass.ofNumber : Nat → Option SizeClass
  | 0 => some .standard
  | 1 => some .large
  | _ => none

def ReleaseOutcome.number : ReleaseOutcome → Nat
  | .ticketGone => 0
  | .notHere => 1
  | .printerUnavailable => 2
  | .colourUnavailable => 3
  | .colourNotPermitted => 4
  | .queueFull => 5
  | .quotaAccount => 6
  | .quotaTenant => 7
  | .released => 8

def RemovalReason.number : RemovalReason → Nat
  | .expired => 0
  | .terminalCancel => 1
  | .aborted => 2
  | .timeoutSettled => 3
  | .serviceSettled => 4
  | .deactivated => 5
  | .loadRemoved => 6
  | .loadSettled => 7

def Crossed.number : Crossed → Nat
  | .account => 0
  | .tenant => 1
  | .both => 2

def StartCause.number : StartCause → Nat
  | .mainPower => 0
  | .externalReset => 1
  | .softReset => 2

def SaveOutcome.number : SaveOutcome → Nat
  | .none => 0
  | .saved => 1
  | .failed => 2

def Presence.number : Presence → Nat
  | .absent => 0
  | .joining => 1
  | .present => 2

def Session.number : Session → Nat
  | .none => 0
  | .pinWait _ _ => 1
  | .listing _ _ _ _ => 2
  | .serviceMenu _ _ _ => 3

def Screen.number : Screen → Nat
  | .welcome _ _ => 0
  | .pinEntry _ => 1
  | .jobList _ => 2
  | .result _ _ => 3
  | .locked _ _ => 4
  | .service _ _ _ _ _ => 5

/-- HELD, QUEUED, PRINTING (R96). -/
def TicketPhase.number : TicketPhase → Nat
  | .held => 0
  | .queued _ => 1
  | .printing _ _ _ => 2

/-- The state in which a callout record stands (R42). -/
def CalloutPhase.state : CalloutPhase → CalloutState
  | .opened _ => .opened
  | .dispatched _ => .dispatched
  | .attended _ => .attended

/-- OPEN, DISPATCHED, ATTENDED (R42). -/
def CalloutPhase.number : CalloutPhase → Nat
  | .opened _ => 0
  | .dispatched _ => 1
  | .attended _ => 2

/-- PROPOSED, PLACED, PARTIAL (R163). -/
def OrderPhase.number : OrderPhase → Nat
  | .proposed => 0
  | .placed _ => 1
  | .partially _ => 2

/-! ## Flags and groups (R179) -/

def Flag.all : List Flag :=
  [.stateChanged, .faultReport, .supplyLow, .supplyOut, .unstockedInstall, .terminalLost,
    .terminalJoined, .calloutOpen, .escalated, .revisit, .grantsWaiting, .jobTimeout, .expired,
    .storeHigh, .orderProposed, .orderOverdue, .orderBlocked, .accountLocked, .quotaExhausted,
    .started, .retainedLost, .batteryLow, .storeInvalid, .settingsSaved, .storeFailed, .clockInvalid]

def Flag.number : Flag → Nat
  | .stateChanged => 0
  | .faultReport => 1
  | .supplyLow => 2
  | .supplyOut => 3
  | .unstockedInstall => 4
  | .terminalLost => 5
  | .terminalJoined => 6
  | .calloutOpen => 7
  | .escalated => 8
  | .revisit => 9
  | .grantsWaiting => 10
  | .jobTimeout => 11
  | .expired => 12
  | .storeHigh => 13
  | .orderProposed => 14
  | .orderOverdue => 15
  | .orderBlocked => 16
  | .accountLocked => 17
  | .quotaExhausted => 18
  | .started => 19
  | .retainedLost => 20
  | .batteryLow => 21
  | .storeInvalid => 22
  | .settingsSaved => 23
  | .storeFailed => 24
  | .clockInvalid => 25

def Flag.ofNumber (n : Nat) : Option Flag := Flag.all[n]?

def FlagGroup.all : List FlagGroup := [.printer, .terminal, .callout, .job, .order, .account, .system]

def FlagGroup.number : FlagGroup → Nat
  | .printer => 0
  | .terminal => 1
  | .callout => 2
  | .job => 3
  | .order => 4
  | .account => 5
  | .system => 6

def FlagGroup.ofNumber (n : Nat) : Option FlagGroup := FlagGroup.all[n]?

def Flag.group : Flag → FlagGroup
  | .stateChanged | .faultReport | .supplyLow | .supplyOut | .unstockedInstall => .printer
  | .terminalLost | .terminalJoined => .terminal
  | .calloutOpen | .escalated | .revisit => .callout
  | .grantsWaiting | .jobTimeout | .expired | .storeHigh => .job
  | .orderProposed | .orderOverdue | .orderBlocked => .order
  | .accountLocked | .quotaExhausted => .account
  | .started | .retainedLost | .batteryLow | .storeInvalid | .settingsSaved | .storeFailed => .system
  | .clockInvalid => .system

/-- The flag is kept for each printer slot or terminal index (R179). -/
def Flag.indexed (f : Flag) : Bool := f.group = .printer || f.group = .terminal

/-- The flag has a lasting cause (R179). -/
def Flag.lasting : Flag → Bool
  | .faultReport | .supplyLow | .supplyOut | .calloutOpen | .grantsWaiting | .storeHigh => true
  | .orderProposed | .orderOverdue | .orderBlocked | .accountLocked | .clockInvalid => true
  | .stateChanged | .unstockedInstall | .terminalLost | .terminalJoined | .escalated => false
  | .revisit | .jobTimeout | .expired | .quotaExhausted | .started | .retainedLost => false
  | .batteryLow | .storeInvalid | .settingsSaved | .storeFailed => false

end Sys2Proof.Machine
end

