-- ==== Sys2Proof/Machine/Ops.lean ====
section
/-! DEFINITION. The shared operations: deadlines, reading and writing the records of each table, and
saturating sums. A block has no exception entry: raising an attention flag is in Machine/Flags.lean. -/

namespace Sys2Proof.Machine

/-! ## Time (R186) -/

/-- The deadline `seconds` after `t`, formed modulo 2^32. -/
def after (t : Time) (seconds : Nat) : Time := t + BitVec.ofNat 32 seconds

/-- A deadline has passed when the time minus the deadline lies within 0 to 2,147,483,647. -/
def passed (now deadline : Time) : Bool := (now - deadline).toNat < 2147483648

/-- The earlier of two deadlines. -/
def earlier (a b : Time) : Time := if passed b a then a else b

/-- Seconds left before a deadline; 0 once it has passed (log entry 10). -/
def secondsLeft (now deadline : Time) : Nat :=
  if passed now deadline then 0 else (deadline - now).toNat

/-- Seconds since an uptime. -/
def secondsSince (now t : Time) : Nat := (now - t).toNat

/-- Adds to a total that saturates at its highest value (spec 00, Arithmetic). -/
def satAdd (top a b : Nat) : Nat := min top (a + b)

/-- Rounds a quotient of natural numbers up. -/
def ceilDiv (a b : Nat) : Nat := (a + b - 1) / b

/-- Replaces a value outside lo to hi by the nearer end (spec 00, Arithmetic). -/
def clamp (lo hi a : Nat) : Nat := max lo (min hi a)

/-! ## Records of the working copy -/

def Device.settings (d : Device) (slot : Nat) : PrinterSettings := d.work.printers.get {} slot
def Device.mapEntry (d : Device) (n : Nat) : Option MapEntry := d.work.conditionMap.get none n
def Device.policy (d : Device) (cls : FaultClass) : Policy := d.work.policies.get cls
def Device.tenantSettings (d : Device) (n : Nat) : TenantSettings := d.work.tenants.get {} n
def Device.accountSettings (d : Device) (n : Nat) : AccountSettings := d.work.accounts.get {} n
def Device.credentials (d : Device) (n : Nat) : Credentials := d.work.credentials.get {} n
def Device.rates (d : Device) (n : Nat) : Rates := d.work.rates.get {} n
def Device.terminalSettings (d : Device) (i : Nat) : TerminalSettings := d.work.terminals.get {} i
def Device.lineSettings (d : Device) (n : Nat) : LineSettings := d.work.lines.get {} n
def Device.kindSettings (d : Device) (n : Nat) : KindSettings := d.work.kinds.get {} n

/-! ## Runtime records -/

def Device.printer (d : Device) (slot : Nat) : Printer := d.printers.get {} slot
def Device.putPrinter (d : Device) (slot : Nat) (r : Printer) : Device :=
  { d with printers := d.printers.put {} slot r }
def Device.modPrinter (d : Device) (slot : Nat) (f : Printer → Printer) : Device :=
  d.putPrinter slot (f (d.printer slot))

def Device.tenantTotals (d : Device) (n : Nat) : TenantTotals := d.tenants.get {} n
def Device.modTenant (d : Device) (n : Nat) (f : TenantTotals → TenantTotals) : Device :=
  { d with tenants := d.tenants.modify {} n f }

def Device.accountTotals (d : Device) (n : Nat) : AccountTotals := d.accounts.get {} n
def Device.modAccount (d : Device) (n : Nat) (f : AccountTotals → AccountTotals) : Device :=
  { d with accounts := d.accounts.modify {} n f }

def Device.callout (d : Device) (n : Nat) : Option Callout := d.callouts.get none n
def Device.putCallout (d : Device) (n : Nat) (c : Option Callout) : Device :=
  { d with callouts := d.callouts.put none n c }

def Device.ticket (d : Device) (n : Nat) : Option Ticket := d.tickets.get none n
def Device.putTicket (d : Device) (n : Nat) (t : Option Ticket) : Device :=
  { d with tickets := d.tickets.put none n t }

def Device.queue (d : Device) (slot : Nat) : List Nat := d.queues.get [] slot
def Device.putQueue (d : Device) (slot : Nat) (q : List Nat) : Device :=
  { d with queues := d.queues.put [] slot q }

def Device.terminal (d : Device) (i : Nat) : Terminal := d.terminals.get {} i
def Device.modTerminal (d : Device) (i : Nat) (f : Terminal → Terminal) : Device :=
  { d with terminals := d.terminals.modify {} i f }

def Device.line (d : Device) (n : Nat) : Line := d.lines.get {} n
def Device.modLine (d : Device) (n : Nat) (f : Line → Line) : Device :=
  { d with lines := d.lines.modify {} n f }

def Device.kind (d : Device) (n : Nat) : Kind := d.stock.get {} n
def Device.modKind (d : Device) (n : Nat) (f : Kind → Kind) : Device :=
  { d with stock := d.stock.modify {} n f }

def Device.order (d : Device) (n : Nat) : Option Order := d.orders.get none n
def Device.putOrder (d : Device) (n : Nat) (o : Option Order) : Device :=
  { d with orders := d.orders.put none n o }

/-! ## What the records say -/

/-- The part has started: main power is there and RSTN is not held low (R190). -/
def Device.running (d : Device) : Bool := d.mainPower && !d.rstnLow

/-- A settings save is running: the store is SAVING (R189). -/
def Device.saving (d : Device) : Bool := d.store.saving.isSome

/-- The slot is configured (R2). -/
def Device.configured (d : Device) (slot : Nat) : Bool := (d.settings slot).enabled

/-- The slot is configured and not RETIRED. -/
def Device.live (d : Device) (slot : Nat) : Bool := d.configured slot && !(d.printer slot).retired

/-- The configured slots, in rising order: every slot the default record does not describe is listed
in the working copy. -/
def Device.configuredSlots (d : Device) : List Nat :=
  d.work.printers.keys.filter fun p => d.configured p

/-- The wall-clock time, present when the clock is valid (R42, R163). -/
def Device.wallNow (d : Device) : Option Time := if d.wallValid then some d.wall else none

/-- The printer is releasable for a ticket with or without colour sides (R12). -/
def Device.releasable (d : Device) (slot : Nat) (hasColour : Bool) : Bool :=
  match (d.printer slot).derived with
  | .online => true
  | .degradedMono => !hasColour
  | .unconfigured | .retired | .service | .faulted | .holdoff => false

/-- The tickets in the store (R101). -/
def Device.ticketCount (d : Device) : Nat := d.tickets.entries.countP fun e => e.2.isSome

/-- What the ticket holds while QUEUED or PRINTING (R96). -/
def TicketPhase.admitted : TicketPhase → Option Admitted
  | .held => none
  | .queued a => some a
  | .printing a _ _ => some a

def TicketPhase.isPrinting : TicketPhase → Bool
  | .printing _ _ _ => true
  | .held | .queued _ => false

/-- The ticket is QUEUED or PRINTING. -/
def Ticket.inFlight (t : Ticket) : Bool := t.phase.admitted.isSome

/-- The tickets in the store with their slots, in rising order of slot. -/
def Device.ticketList (d : Device) : List (Nat × Ticket) :=
  d.tickets.entries.filterMap fun e => e.2.map fun t => (e.1, t)

/-- The PRINTING ticket of a printer: the head of its queue when that is PRINTING (R111). -/
def Device.printingTicket (d : Device) (slot : Nat) : Option (Nat × Ticket) :=
  match d.queue slot with
  | [] => none
  | n :: _ =>
    match d.ticket n with
    | some t => if t.phase.isPrinting then some (n, t) else none
    | none => none

/-- The terminal index of a line and address (R123). -/
def terminalIndex (line address : Nat) : Nat := line * 32 + address - 1

/-- Places items in the order of a number, an item ahead of those of the same number. -/
def insertBy {α : Type} (key : α → Nat) (a : α) : List α → List α
  | [] => [a]
  | b :: rest => if key a ≤ key b then a :: b :: rest else b :: insertBy key a rest

def sortBy {α : Type} (key : α → Nat) : List α → List α
  | [] => []
  | a :: rest => insertBy key a (sortBy key rest)

end Sys2Proof.Machine
end

