-- ==== Sys2Proof/Machine/Flags.lean ====
section
/-! DEFINITION. The attention unit: raising a flag, the lasting causes, and ATTN (R178 to R182). -/

namespace Sys2Proof.Machine

/-- The number under which a flag's set state is kept: flag number * 128 + index (0 for a device-wide
flag). -/
def stampKey (f : Flag) (index : Nat) : Nat := f.number * 128 + index

/-- The individual enable of a flag (R178). -/
def Device.enabled (d : Device) (f : Flag) : Bool := d.work.enables.flags.get true f.number

/-- The stamp of a set flag, or none when it is clear. -/
def Device.stamp (d : Device) (f : Flag) (index : Nat) : Option (BitVec 32) :=
  d.attention.stamps.get none (stampKey f index)

/-- Raises a flag at an index (R178): with its individual enable set, the raise counter rises by 1 and the
flag is set with the counter's new value as its stamp; with the enable clear, nothing happens. -/
def Device.raise (d : Device) (f : Flag) (index : Nat := 0) : Device :=
  if d.enabled f then
    { d with attention :=
      { stamps := d.attention.stamps.put none (stampKey f index) (some (d.attention.counter + 1))
        counter := d.attention.counter + 1 } }
  else d

/-- Clears a flag at an index. -/
def Device.clearFlag (d : Device) (f : Flag) (index : Nat) : Device :=
  { d with attention :=
    { d.attention with stamps := d.attention.stamps.put none (stampKey f index) none } }

/-- The callout record is in OPEN. -/
def Callout.isOpen (c : Callout) : Bool :=
  match c.phase with
  | .opened _ => true
  | .dispatched _ | .attended _ => false

/-- What a placed order holds. -/
def Order.placedInfo (o : Order) : Option Placed :=
  match o.phase with
  | .proposed => none
  | .placed p | .partially p => some p

/-- The lasting cause of a flag holds at an index (R179); an event flag has none. -/
def Device.causeHolds (d : Device) (f : Flag) (index : Nat) : Bool :=
  match f with
  | .faultReport =>
    FaultClass.all.any fun cls =>
      (d.policy cls).mode = .report && ((d.printer index).faults.get cls).active
  | .supplyLow => (d.printer index).low
  | .supplyOut => (d.printer index).out
  | .calloutOpen => d.callouts.entries.any fun e => e.2.any Callout.isOpen
  | .grantsWaiting => !d.grants.isEmpty
  | .storeHigh => Config.storeHighCause ≤ d.ticketCount
  | .orderProposed => d.orders.entries.any fun e => e.2.any fun o => o.placedInfo.isNone
  | .orderOverdue => d.orders.entries.any fun e => e.2.any fun o => o.placedInfo.any Placed.marked
  | .orderBlocked => d.stock.entries.any fun e => e.2.blocked
  | .accountLocked => d.accounts.entries.any fun e => e.2.lockedUntil.isSome
  | .clockInvalid => !d.wallValid
  | .stateChanged | .unstockedInstall | .terminalLost | .terminalJoined | .escalated => false
  | .revisit | .jobTimeout | .expired | .quotaExhausted | .started | .retainedLost => false
  | .batteryLow | .storeInvalid | .settingsSaved | .storeFailed => false

/-- The indices a flag is kept for (R179). -/
def Flag.indices (f : Flag) : List Nat := if f.indexed then List.range 128 else [0]

/-- Raises a flag at each index whose lasting cause holds (R181, R190 stage 6). -/
def Device.raiseCauses (d : Device) (f : Flag) : Device :=
  f.indices.foldl (fun d i => if d.causeHolds f i then d.raise f i else d) d

/-- The flag of a stamp key. -/
def flagOfKey (key : Nat) : Option Flag := Flag.ofNumber (key / 128)

/-- The set flags with their index and stamp, in order of flag and index. -/
def Device.setFlags (d : Device) : List (Flag × Nat × BitVec 32) :=
  d.attention.stamps.entries.filterMap fun e =>
    match flagOfKey e.1, e.2 with
    | some f, some st => some (f, e.1 % 128, st)
    | _, _ => none

/-- The group enable of a group (R181). -/
def Device.groupEnabled (d : Device) (g : FlagGroup) : Bool := d.work.enables.groups.get true g.number

/-- ATTN is pulled low (R182): the part has started, the global enable is set, and a flag is set whose
group enable is set. -/
def Device.attnLow (d : Device) : Bool :=
  d.running && d.work.enables.global && d.setFlags.any fun e => d.groupEnabled e.1.group

end Sys2Proof.Machine
end

