-- ==== Sys2Proof/Machine/Link.lean ====
section
/-! DEFINITION. The host link: frames and their check, the receiver, the request queue, and the serving
of the oldest frame (R172 to R174). -/

namespace Sys2Proof.Machine

/-! ## Frames (R172) -/

/-- One bit step of the CRC-16 with polynomial 1021h. -/
def crcBit (c : BitVec 16) : BitVec 16 := if c.msb then (c <<< 1) ^^^ 0x1021#16 else c <<< 1

/-- Feeds a byte, its most significant bit first. -/
def crcByte (c : BitVec 16) (b : Byte) : BitVec 16 :=
  crcBit (crcBit (crcBit (crcBit (crcBit (crcBit (crcBit (crcBit
    (c ^^^ (b.zeroExtend 16 <<< 8)))))))))

/-- The check of a run of bytes: initial value FFFFh, no final inversion. -/
def crc (bytes : List Byte) : BitVec 16 := bytes.foldl crcByte 0xFFFF#16

/-- The two check bytes, low byte first. -/
def checkBytes (bytes : List Byte) : List Byte := toBytes 2 (crc bytes).toNat

/-- The length, kind and tag bytes of a frame. -/
def Frame.header (f : Frame) : List Byte := toBytes 2 f.body.length ++ [BitVec.ofNat 8 f.kind, f.tag]

/-- The bytes of a frame on the line. -/
def Frame.wire (f : Frame) : List Byte :=
  0xC3 :: (f.header ++ f.body ++ checkBytes (f.header ++ f.body))

/-! ## The receiver (R173) -/

/-- A complete frame joins the tail of the request queue, or is discarded when four frames wait (R174). -/
def Link.enqueue (l : Link) (f : Frame) : Link :=
  if l.queue.length < Config.requestRoom then { l with queue := l.queue ++ [f] }
  else { l with overrunCount := satAdd Config.max16 l.overrunCount 1 }

/-- The frame that a header and a body make. -/
def frameOf (header body : List Byte) : Frame where
  kind := ((header.drop 2).headD 0).toNat
  tag := (header.drop 3).headD 0
  body := body

/-- The receiver after the four header bytes: straight to CHECK when the length is 0. -/
def afterHeader (header : List Byte) : Receiver :=
  if ofBytes (header.take 2) = 0 then .check header [] []
  else .body header [] (ofBytes (header.take 2))

/-- Takes one byte with a good stop bit. -/
def Link.takeByte (l : Link) (v : Byte) : Link :=
  match l.receiver with
  | .hunt => if v = 0xC3 then { l with receiver := .header [] } else l
  | .header got =>
    if got.length = 1 ∧ ofBytes (got ++ [v]) > Config.maxBody then
      { l with receiver := .hunt, lengthCount := satAdd Config.max16 l.lengthCount 1 }
    else if got.length = 3 then { l with receiver := afterHeader (got ++ [v]) }
    else { l with receiver := .header (got ++ [v]) }
  | .body header got left =>
    if left ≤ 1 then { l with receiver := .check header (got ++ [v]) [] }
    else { l with receiver := .body header (got ++ [v]) (left - 1) }
  | .check header body got =>
    if got.length = 0 then { l with receiver := .check header body [v] }
    else if got ++ [v] = checkBytes (header ++ body) then
      { l with receiver := .hunt }.enqueue (frameOf header body)
    else { l with receiver := .hunt, checkCount := satAdd Config.max16 l.checkCount 1 }

/-- Takes one received byte. A bad stop bit abandons a frame; in HUNT such a byte is ignored. -/
def Link.receive (l : Link) (b : RxByte) : Link :=
  if b.badStop then
    if l.receiver = .hunt then l
    else { l with receiver := .hunt, framingCount := satAdd Config.max16 l.framingCount 1 }
  else l.takeByte b.value

/-- A gap of more than 20 ms abandons the frame in progress, if there is one. -/
def Link.gap (l : Link) : Link :=
  if l.receiver = .hunt then l
  else { l with receiver := .hunt, gapCount := satAdd Config.max16 l.gapCount 1 }

/-- HOST_FRAME: bytes arrive with no gap. The receiver takes none until the part has started (R173). -/
def receiveBytes (bytes : List RxByte) (s : State) : State :=
  if s.device.running then { s with link := bytes.foldl Link.receive s.link } else s

/-- FRAME_GAP: a gap, then bytes; the byte that ends the gap is taken in HUNT (R173). -/
def receiveAfterGap (bytes : List RxByte) (s : State) : State :=
  if s.device.running then { s with link := bytes.foldl Link.receive s.link.gap } else s

/-! ## Serving the request queue (R174) -/

/-- The kind of the reply to a request kind (R174). -/
def replyKind (kind : Nat) : Nat := if kind < 0x80 then kind + 0x80 else 0xFF

/-- The request kinds of the table of R174. -/
def isRequestKind (kind : Nat) : Bool :=
  (0x01 ≤ kind && kind ≤ 0x04) || (0x08 ≤ kind && kind ≤ 0x0B) || (0x10 ≤ kind && kind ≤ 0x13)
    || (0x18 ≤ kind && kind ≤ 0x1B) || (0x20 ≤ kind && kind ≤ 0x23) || (0x28 ≤ kind && kind ≤ 0x31)
    || (0x38 ≤ kind && kind ≤ 0x3A) || (0x40 ≤ kind && kind ≤ 0x45) || (0x48 ≤ kind && kind ≤ 0x4A)
    || (0x50 ≤ kind && kind ≤ 0x51) || (0x58 ≤ kind && kind ≤ 0x5F)

/-- The state once the oldest frame `f` has been served: it has left the queue, the owning blocks have
taken it, and the reply repeats its tag. -/
def State.served (s : State) (f : Frame) (rest : List Frame) (result : Device × List Byte) : State :=
  { s with
    link := { s.link with queue := rest, reply := some ⟨replyKind f.kind, f.tag, result.2⟩ }
    device := result.1 }

/-- Serves the oldest frame of the queue when its kind is one of `kinds`: its body goes to the owning
block, and the reply is built after that. Nothing happens when the part has not started, no frame
waits, or the oldest frame is of another kind (log entry 1). -/
def serveWhen (kinds : Nat → Bool) (handler : List Byte → Device → Device × List Byte) (s : State) :
    State :=
  match s.link.queue with
  | [] => s
  | f :: rest =>
    if s.device.running && kinds f.kind then s.served f rest (handler f.body s.device) else s

/-- Serves the oldest frame when it is of the given request kind. -/
def serve (kind : Nat) (handler : List Byte → Device → Device × List Byte) (s : State) : State :=
  serveWhen (fun k => k = kind) handler s

/-- A request whose body is made of number fields of fixed widths: any other length is answered
BAD_LENGTH (R174, R176). -/
def withFields (ws : List Nat) (handler : List Nat → Device → Device × List Byte)
    (body : List Byte) (d : Device) : Device × List Byte :=
  match fields ws body with
  | none => refuse .badLength d
  | some vs => handler vs d

/-- A setting request whose fields are in range is answered BUSY while a save runs (R174, R189). -/
def unlessSaving (d : Device) (result : Device × List Byte) : Device × List Byte :=
  if d.saving then refuse .busy d else result

/-- UNKNOWN_KIND: a frame whose kind is not a request kind (R174). -/
def unknownKindReply (_ : List Byte) (d : Device) : Device × List Byte := refuse .unknownKind d

/-- IDENTIFY (R177), with the link counters of the host link. -/
def identifyReply (l : Link) : List Byte :=
  toBytes 2 Config.vendorCode ++ toBytes 2 Config.partCode ++ toBytes 1 Config.revision
    ++ toBytes 2 Config.maxBody ++ toBytes 1 Config.requestRoom ++ toBytes 2 l.checkCount
    ++ toBytes 2 l.lengthCount ++ toBytes 2 l.gapCount ++ toBytes 2 l.framingCount
    ++ toBytes 2 l.overrunCount

def identify (l : Link) : List Byte → Device → Device × List Byte :=
  withFields [] fun _ d => answer d (identifyReply l)

end Sys2Proof.Machine
end

