-- ==== Sys2Proof/Machine/Faults.lean ====
section
/-! DEFINITION. The fault supervisor's records (spec 02): class activity, modes, clearing, the condition
map and policies. What a latching does in the callout table is in Machine/Callouts.lean. -/

namespace Sys2Proof.Machine

def Device.fault (d : Device) (slot : Nat) (cls : FaultClass) : FaultRecord :=
  (d.printer slot).faults.get cls

def Device.putFault (d : Device) (slot : Nat) (cls : FaultClass) (r : FaultRecord) : Device :=
  d.modPrinter slot fun p => { p with faults := p.faults.set r cls }

/-! ## Activation and deactivation (R22, R30 to R35) -/

/-- The recurrence window has elapsed: its start is absent, or start plus window is reached (R30). DESIGN CHOICE
(log entry 60): where uptime wraps, reached is judged by R186's half-range test, as for a deadline. -/
def FaultRecord.windowElapsed (pol : Policy) (now : Time) (r : FaultRecord) : Bool :=
  match r.window with
  | none => true
  | some start => passed now (after start (pol.window * 60))

/-- A class latches: latched is set and the holdoff ends (R31, R32, R33). -/
def FaultRecord.latch (r : FaultRecord) : FaultRecord := { r with latched := true, holdoff := none }

/-- One more occurrence under RETRY: the count rises, and the class latches at the limit or holds off
until `deadline` (R32 steps 2 to 4, R33). -/
def FaultRecord.recur (pol : Policy) (deadline : Time) (r : FaultRecord) : FaultRecord :=
  let counted := { r with count := min 7 (r.count + 1) }
  if pol.limit ≤ counted.count then counted.latch else { counted with holdoff := some deadline }

/-- The record after an activation under the policy's mode (R31, R32, R34). -/
def FaultRecord.activate (pol : Policy) (now : Time) (r : FaultRecord) : FaultRecord :=
  match pol.mode with
  | .latched => if r.latched then r else r.latch
  | .retry =>
    if r.latched then r
    else if r.windowElapsed pol now then
      FaultRecord.recur pol (after now pol.retryTime) { r with window := some now, count := 0 }
    else FaultRecord.recur pol (after now pol.retryTime) r
  | .report | .ignore => r

/-- The active field set, with the activation code where the class has one (R22, R24). DESIGN CHOICE (log entry 46):
the code is recorded too where the class is latched under RETRY. -/
def FaultRecord.nowActive (code : Option Nat) (r : FaultRecord) : FaultRecord :=
  { r with active := true, code := if code.isSome then code else r.code }

/-- Raises FAULT_REPORT for a class whose mode is REPORT (R34). -/
def Device.reportActivation (d : Device) (slot : Nat) (cls : FaultClass) : Device :=
  if (d.policy cls).mode = .report then d.raise .faultReport slot else d

/-- A source hands a class of a printer as active or inactive (R22). A slot that is UNCONFIGURED or
RETIRED takes no activity. A latching is handed on afterwards (`handLatchings`). -/
def Device.hand (d : Device) (slot : Nat) (cls : FaultClass) (active : Bool)
    (code : Option Nat := none) : Device :=
  if !d.live slot || (d.fault slot cls).active = active then d
  else if active then
    (d.putFault slot cls
      (FaultRecord.activate (d.policy cls) d.uptime ((d.fault slot cls).nowActive code))).reportActivation
        slot cls
  else d.putFault slot cls { d.fault slot cls with active := false }

/-- The record when its holdoff deadline passes (R33). -/
def FaultRecord.holdoffPassed (pol : Policy) (deadline : Time) (r : FaultRecord) : FaultRecord :=
  if !r.active then { r with holdoff := none }
  else
    match pol.mode with
    | .retry => FaultRecord.recur pol (after deadline pol.retryTime) r
    | .latched => r.latch
    | .report | .ignore => { r with holdoff := none }

/-! ## Clearing (R37, R38) -/

/-- Clearing acts on a latched class: an inactive one is cleared, an active one keeps its record (R37). -/
def FaultRecord.clearLatch (r : FaultRecord) : FaultRecord :=
  if r.latched && !r.active then { r with latched := false, count := 0, window := none } else r

/-- CLEAR FAULT also ends what an unlatched inactive class holds (R38). -/
def FaultRecord.clearFault (r : FaultRecord) : FaultRecord :=
  if r.active then r
  else if r.latched then r.clearLatch
  else { r with holdoff := none, count := 0, window := none }

/-- CLEAR FAULT counts the class as still active: it is active, and latched or holding off (R37, R38). -/
def FaultRecord.stillActive (r : FaultRecord) : Bool := r.active && (r.latched || r.holdoff.isSome)

/-- Clears the latched inactive classes of a printer (R37). -/
def Device.clearLatches (d : Device) (slot : Nat) : Device :=
  d.modPrinter slot fun p =>
    { p with faults := ByClass.ofFn fun cls => (p.faults.get cls).clearLatch }

/-- The classes of a printer that are latched. -/
def Device.latchedSet (d : Device) (slot : Nat) : ByClass Bool :=
  ByClass.ofFn fun cls => (d.fault slot cls).latched

/-- The classes of a printer that have a running holdoff. -/
def Device.holdoffSet (d : Device) (slot : Nat) : ByClass Bool :=
  ByClass.ofFn fun cls => (d.fault slot cls).holdoff.isSome

/-! ## The condition map (R23 to R26) -/

def MapEntry.covers (e : MapEntry) (code : Nat) : Bool := e.codeLow ≤ code && code ≤ e.codeHigh

/-- The lowest-numbered entry in use that a code matches (R24). -/
def Device.winner (d : Device) (code : Nat) : Option MapEntry :=
  (d.work.conditionMap.entries.filterMap Prod.snd).find? fun e => e.covers code

/-- The class a code belongs to: its winning entry's, or OTHER (R24). -/
def Device.classOf (d : Device) (code : Nat) : FaultClass :=
  match d.winner code with
  | some e => e.cls
  | none => .other

/-- The first code of a list that belongs to a class (R24). -/
def Device.firstCode (d : Device) (codes : List Nat) (cls : FaultClass) : Option Nat :=
  codes.find? fun code => d.classOf code = cls

/-- Hands each mapped class from a report's list (R24), in the order of R28. -/
def Device.handMapped (d : Device) (slot : Nat) (codes : List Nat) : Device :=
  (FaultClass.all.filter FaultClass.isMapped).foldl
    (fun d cls => d.hand slot cls (d.firstCode codes cls).isSome (d.firstCode codes cls)) d

/-- A report's list marks a channel absent (R25). -/
def Device.marksAbsent (d : Device) (codes : List Nat) (ch : Channel) : Bool :=
  codes.any fun code =>
    (d.winner code).any fun e => e.cls = .supplyAbsent && e.channel = some ch

def Device.putMapEntry (d : Device) (n : Nat) (e : Option MapEntry) : Device :=
  { d with work := { d.work with conditionMap := d.work.conditionMap.put none n e } }

/-- The entry that the fields of a SET CONDITION MAP make, or none where a field is out of range (R26). -/
def mapEntryOf (low high cls chPres ch : Nat) : Option MapEntry :=
  match FaultClass.ofNumber cls, optOf chPres ch with
  | some c, some none => if c.isMapped && low ≤ high then some ⟨low, high, c, none⟩ else none
  | some c, some (some n) =>
    match Channel.ofNumber n with
    | some chan =>
      if c = .supplyAbsent && low ≤ high then some ⟨low, high, c, some chan⟩ else none
    | none => none
  | _, _ => none

/-- SET CONDITION MAP (R26): EMPTY is presence byte 0 (log entry 8), behind which the other bytes are not read
(log entry 37). -/
def setConditionMap : List Byte → Device → Device × List Byte :=
  withFields [1, 1, 2, 2, 1, 1, 1] fun vs d =>
    match vs with
    | [n, pres, low, high, cls, chPres, ch] =>
      if Config.mapEntries ≤ n then refuse .badField d
      else
        match pres, mapEntryOf low high cls chPres ch with
        | 0, _ => unlessSaving d (answer (d.putMapEntry n none) [])
        | 1, some e => unlessSaving d (answer (d.putMapEntry n (some e)) [])
        | _, _ => refuse .badField d
    | _ => refuse .badLength d

/-! ## Policies (R28) -/

def policyInRange (p : Policy) : Bool :=
  10 ≤ p.retryTime && p.retryTime ≤ 3600 && 1 ≤ p.limit && p.limit ≤ 7
    && 1 ≤ p.window && p.window ≤ 1440 && 15 ≤ p.response && p.response ≤ 1440

def Device.putPolicy (d : Device) (cls : FaultClass) (p : Policy) : Device :=
  { d with work := { d.work with policies := d.work.policies.set p cls } }

/-- SET FAULT POLICY (R28). A new policy governs the events taken after it; the records stand (R29). -/
def setFaultPolicy : List Byte → Device → Device × List Byte :=
  withFields [1, 1, 1, 2, 1, 2, 2] fun vs d =>
    match vs with
    | [cls, mode, callout, retry, limit, window, response] =>
      match FaultClass.ofNumber cls, FaultMode.ofNumber mode, boolOf callout with
      | some c, some m, some co =>
        if policyInRange ⟨m, co, retry, limit, window, response⟩ then
          unlessSaving d (answer (d.putPolicy c ⟨m, co, retry, limit, window, response⟩) [])
        else refuse .badField d
      | _, _, _ => refuse .badField d
    | _ => refuse .badLength d

/-! ## Reading (R39) -/

/-- The seconds left in the window, absent when it has elapsed (R39), as `windowElapsed` judges (log entry 60). -/
def windowLeft (pol : Policy) (now : Time) (r : FaultRecord) : Option Nat :=
  r.window.bind fun start =>
    if r.windowElapsed pol now then none else some (secondsLeft now (after start (pol.window * 60)))

def faultBytes (d : Device) (slot : Nat) (cls : FaultClass) : List Byte :=
  let r := d.fault slot cls
  [boolByte r.active, boolByte r.latched] ++ optBytes 2 (r.holdoff.map (secondsLeft d.uptime))
    ++ toBytes 1 r.count ++ optBytes 4 (windowLeft (d.policy cls) d.uptime r) ++ optBytes 2 r.code
    ++ toBytes 1 (d.policy cls).mode.number

def policyBytes (p : Policy) : List Byte :=
  toBytes 1 p.mode.number ++ [boolByte p.callout] ++ toBytes 2 p.retryTime ++ toBytes 1 p.limit
    ++ toBytes 2 p.window ++ toBytes 2 p.response

def mapEntryBytes : Option MapEntry → List Byte
  | none => 0 :: toBytes 7 0
  | some e =>
    1 :: (toBytes 2 e.codeLow ++ toBytes 2 e.codeHigh ++ toBytes 1 e.cls.number
      ++ optBytes 1 (e.channel.map Channel.number))

/-- READ FAULTS with PRINTER (R39). DESIGN CHOICE (log entry 38): the twelve classes stand in the order of R28,
as R39 has them stand for POLICIES. -/
def readFaultRecords (slot : Nat) (d : Device) : Device × List Byte :=
  if Config.printers ≤ slot then refuse .badField d
  else if !d.configured slot then refuse .notFound d
  else
    answer d (FaultClass.all.flatMap (faultBytes d slot)
      ++ Channel.all.map (fun ch => boolByte ((d.printer slot).marks.get ch))
      ++ toBytes 1 (d.printer slot).derived.number)

/-- READ FAULTS (R39): selector PRINTER, POLICIES or MAP. -/
def readFaults (body : List Byte) (d : Device) : Device × List Byte :=
  match body with
  | [] => refuse .badLength d
  | sel :: rest =>
    match sel.toNat with
    | 0 => withFields [1] (fun vs d => readFaultRecords (vs.headD 0) d) rest d
    | 1 =>
      withFields [] (fun _ d => answer d (FaultClass.all.flatMap fun cls => policyBytes (d.policy cls)))
        rest d
    | 2 =>
      withFields [] (fun _ d =>
        answer d ((List.range Config.mapEntries).flatMap fun n => mapEntryBytes (d.mapEntry n))) rest d
    | _ => refuse .badField d

end Sys2Proof.Machine
end

