-- ==== Sys2Proof/Machine/Stock.lean ====
section
/-! DEFINITION. The stock table and the order table (spec 09): demand and position, proposals, orders and
their requests. -/

namespace Sys2Proof.Machine

/-! ## On order, demand, position (R160) -/

/-- The order records in use of a kind, with their numbers. -/
def Device.ordersOf (d : Device) (kind : Nat) : List (Nat × Order) :=
  (d.orders.entries.filterMap fun e => e.2.map fun o => (e.1, o)).filter fun e => e.2.kind = kind

def Device.onOrder (d : Device) (kind : Nat) : Nat :=
  ((d.ordersOf kind).map fun e => e.2.quantity - e.2.received).sum

/-- Days to empty that count in a kind's demand: set and below the lead time (R160). -/
def countsInDemand (lead : Nat) : Option Nat → Bool
  | none => false
  | some days => days < lead && days < Config.farDays

/-- The channels counted in a kind's demand, each with its printer slot and D (R160). DESIGN CHOICE
(log entry 57): by rising slot, then in the order K, C, M, Y, DRUM, WASTE, as READ STOCK lists them (R170). -/
def Device.demandChannels (d : Device) (kind : Nat) : List (Nat × Channel × Nat) :=
  (d.configuredSlots.filter fun p => d.live p).flatMap fun p =>
    Channel.all.filterMap fun ch =>
      let days := ((d.printer p).forecasts.get ch).days
      if (d.settings p).channels.get ch && (d.settings p).kinds.get ch = some kind
          && countsInDemand (d.kindSettings kind).leadTime days then
        days.map fun n => (p, ch, n)
      else none

def Device.demand (d : Device) (kind : Nat) : Nat := (d.demandChannels kind).length

def Device.position (d : Device) (kind : Nat) : Int :=
  ((d.kind kind).onHand : Int) + d.onOrder kind - d.demand kind

/-! ## Proposals (R161 to R163) -/

/-- The lowest-numbered free order record. -/
def Device.freeOrder (d : Device) : Option Nat :=
  (List.range Config.orders).find? fun n => (d.order n).isNone

/-- Some order record in use holds the serial. -/
def Device.orderSerialHeld (d : Device) (serial : BitVec 16) : Bool :=
  d.orders.entries.any fun e => e.2.any fun o => o.serial = serial

/-- The first serial from a counter value that passes `held` over; `fuel` bounds the records in use. -/
def firstFreeSerial (held : BitVec 16 → Bool) : Nat → BitVec 16 → BitVec 16
  | 0, serial => serial
  | fuel + 1, serial => if held serial then firstFreeSerial held fuel (serial + 1) else serial

/-- The quantity of a proposal (R162): whole packs up to the order-up-to level, or the largest number of
whole packs within 255. -/
def proposalQuantity (k : KindSettings) (position : Int) : Nat :=
  let packs := ceilDiv ((k.orderUpTo : Int) - position).toNat k.packSize
  if packs * k.packSize ≤ 255 then packs * k.packSize else 255 / k.packSize * k.packSize

/-- Some order of the kind is in PROPOSED. -/
def Device.hasProposal (d : Device) (kind : Nat) : Bool :=
  (d.ordersOf kind).any fun e => e.2.placedInfo.isNone

/-- The first four conditions of R161. -/
def Device.wantsOrder (d : Device) (kind : Nat) : Bool :=
  (d.kindSettings kind).configured && d.position kind < (d.kindSettings kind).reorderPoint
    && !d.hasProposal kind && !(d.kind kind).hold

/-- Opens order record `n` for a proposal of the kind (R162). -/
def Device.propose (d : Device) (kind n : Nat) : Device :=
  let serial := firstFreeSerial d.orderSerialHeld (Config.orders + 1) d.orderSerial
  let order : Order :=
    { serial := serial
      kind := kind
      quantity := proposalQuantity (d.kindSettings kind) (d.position kind)
      received := 0
      phase := .proposed
      proposedAt := d.uptime
      proposedWall := d.wallNow }
  ({ d.putOrder n (some order) with orderSerial := serial + 1 }).raise .orderProposed

def Device.setBlocked (d : Device) (kind : Nat) (b : Bool) : Device :=
  d.modKind kind fun k => { k with blocked := b }

/-- Evaluates a kind for a proposal (R161): it proposes, becomes blocked, or stops being blocked. -/
def Device.evaluate (d : Device) (kind : Nat) : Device :=
  if d.wantsOrder kind then
    match d.freeOrder with
    | some n => (d.propose kind n).setBlocked kind false
    | none =>
      if (d.kind kind).blocked then d else (d.setBlocked kind true).raise .orderBlocked
  else d.setBlocked kind false

/-- Offers freed order records to the blocked kinds, in ascending kind number (R163). DESIGN CHOICE (log entry 52): a
kind that is not blocked is not evaluated for a record freed by another kind. -/
def Device.offerOrders (d : Device) : Device :=
  (List.range Config.stockKinds).foldl
    (fun d k => if (d.kind k).blocked then d.evaluate k else d) d

/-- The channels counted in a kind's demand, without their D. -/
def Device.demandMembers (d : Device) (kind : Nat) : List (Nat × Channel) :=
  (d.demandChannels kind).map fun e => (e.1, e.2.1)

/-- A kind's demand changed between two devices in one event that takes each channel once: a channel joined or
left those counted. So a demand that moved and came back has changed too (R153, R160). -/
def Device.demandMoved (before now : Device) (kind : Nat) : Bool :=
  before.demandMembers kind ≠ now.demandMembers kind

/-- Evaluates each kind whose demand changed between two devices (R160, R161). DESIGN CHOICE (log entry 45): in
ascending kind number where one request moves the demand of several. -/
def Device.evaluateMoved (before now : Device) : Device :=
  (List.range Config.stockKinds).foldl
    (fun d k => if Device.demandMoved before now k then d.evaluate k else d) now

/-- Clears a kind's declined hold. -/
def Device.clearHold (d : Device) (kind : Nat) : Device := d.modKind kind fun k => { k with hold := false }

/-- Sets a kind's on hand; a changed count clears its hold (R165). -/
def Device.setOnHand (d : Device) (kind n : Nat) : Device :=
  d.modKind kind fun k => { k with onHand := n, hold := k.hold && k.onHand = n }

/-- Takes an install of the channel's kind (R146): one spare leaves the count, or UNSTOCKED_INSTALL is
raised for the printer slot when the count is 0. -/
def Device.takeInstall (d : Device) (slot : Nat) : Option Nat → Device
  | none => d
  | some kind =>
    if (d.kindSettings kind).configured then
      if (d.kind kind).onHand = 0 then d.raise .unstockedInstall slot
      else (d.setOnHand kind ((d.kind kind).onHand - 1)).evaluate kind
    else d

/-! ## Setting a kind (R159) -/

def kindInRange (kind : Nat) (k : KindSettings) : Bool :=
  kind < Config.stockKinds && k.reorderPoint ≤ 255 && 1 ≤ k.orderUpTo && k.orderUpTo ≤ 255
    && k.reorderPoint < k.orderUpTo && 1 ≤ k.packSize && k.packSize ≤ 24
    && 1 ≤ k.leadTime && k.leadTime ≤ 60 && k.grace ≤ 30

def Device.putKindSettings (d : Device) (kind : Nat) (k : KindSettings) : Device :=
  { d with work := { d.work with kinds := d.work.kinds.put {} kind k } }

/-- The runtime record of a kind after a change of its settings record: it starts from 0 when the kind
becomes configured or unconfigured, and else loses its hold (R159). -/
def kindAfterChange (was now : KindSettings) (k : Kind) : Kind :=
  if was.configured && now.configured then { k with hold := false } else {}

/-- An accepted SET STOCK KIND (R159): a record that changes nothing has no effect. -/
def Device.changeKind (d : Device) (kind : Nat) (k : KindSettings) : Device :=
  if d.kindSettings kind = k then d
  else
    ((d.putKindSettings kind k).modKind kind
      (kindAfterChange (d.kindSettings kind) k)).evaluate kind

/-- SET STOCK KIND (R159). -/
def setStockKind : List Byte → Device → Device × List Byte :=
  withFields [1, 1, 4, 1, 1, 1, 1, 1] fun vs d =>
    match vs with
    | [kind, conf, supplier, reorder, upTo, pack, lead, grace] =>
      match boolOf conf with
      | none => refuse .badField d
      | some configured =>
        let k : KindSettings := ⟨configured, supplier, reorder, upTo, pack, lead, grace⟩
        if kindInRange kind k then
          unlessSaving d
            (if (d.kindSettings kind).configured && !configured && !(d.ordersOf kind).isEmpty then
              refuse .state d
            else answer (d.changeKind kind k) [])
        else refuse .badField d
    | _ => refuse .badLength d

/-! ## Orders (R163 to R169) -/

/-- An order request whose number is in range reaches the record with that number and serial; a free
record or another serial is answered NOT_FOUND (R163). -/
def withOrder (d : Device) (n serial : Nat) (f : Order → Device × List Byte) : Device × List Byte :=
  if n < Config.orders then
    match d.order n with
    | some o => if o.serial.toNat = serial then f o else refuse .notFound d
    | none => refuse .notFound d
  else refuse .badField d

/-- Frees an order record. -/
def Device.freeOrderRecord (d : Device) (n : Nat) : Device := d.putOrder n none

/-- The order after APPROVE ORDER (R164). -/
def Device.approved (d : Device) (o : Order) (quantity : Nat) : Order :=
  { o with
    quantity := quantity
    phase := .placed
      { at_ := d.uptime
        wall := d.wallNow
        overdue := after d.uptime
          (((d.kindSettings o.kind).leadTime + (d.kindSettings o.kind).grace) * Config.daySeconds)
        marked := false } }

/-- An approval taken (R164); a changed quantity evaluates the kind. -/
def Device.approve (d : Device) (n : Nat) (o : Order) (quantity : Nat) : Device :=
  let now := d.putOrder n (some (d.approved o quantity))
  if quantity = o.quantity then now else now.evaluate o.kind

/-- APPROVE ORDER (R164). DESIGN CHOICE (log entry 48): a quantity out of range is answered before the record is
looked at. -/
def approveOrder : List Byte → Device → Device × List Byte :=
  withFields [1, 2, 1, 1] fun vs d =>
    match vs with
    | [n, serial, pres, q] =>
      match optOf pres q with
      | none => refuse .badField d
      | some quantity =>
        if quantity = some 0 then refuse .badField d
        else
          withOrder d n serial fun o =>
            match o.phase with
            | .proposed =>
              answer (d.approve n o (quantity.getD o.quantity))
                (toBytes 4 (d.kindSettings o.kind).supplier
                  ++ toBytes 1 (quantity.getD o.quantity)
                  ++ toBytes 4 (((d.kindSettings o.kind).leadTime + (d.kindSettings o.kind).grace)
                      * Config.daySeconds))
            | .placed _ | .partially _ => refuse .state d
    | _ => refuse .badLength d

/-- A decline taken (R165): the record is freed, the hold set, and the record offered. -/
def Device.decline (d : Device) (n : Nat) (o : Order) : Device :=
  (((d.freeOrderRecord n).modKind o.kind fun k => { k with hold := true }).evaluate
    o.kind).offerOrders

/-- DECLINE ORDER (R165). -/
def declineOrder : List Byte → Device → Device × List Byte :=
  withFields [1, 2] fun vs d =>
    match vs with
    | [n, serial] =>
      withOrder d n serial fun o =>
        match o.phase with
        | .proposed => answer (d.decline n o) []
        | .placed _ | .partially _ => refuse .state d
    | _ => refuse .badLength d

/-- CANCEL ORDER (R166). -/
def cancelOrder : List Byte → Device → Device × List Byte :=
  withFields [1, 2] fun vs d =>
    match vs with
    | [n, serial] =>
      withOrder d n serial fun o =>
        match o.phase with
        | .proposed => refuse .state d
        | .placed _ | .partially _ =>
          answer (((d.freeOrderRecord n).evaluate o.kind).offerOrders) []
    | _ => refuse .badLength d

/-- A placed order after a delivery that does not close it (R167). -/
def afterDelivery (o : Order) (p : Placed) (quantity : Nat) : Order :=
  { o with received := o.received + quantity, phase := .partially p }

/-- A delivery taken (R167): the units go into on hand, the order becomes PARTIAL or is freed, the kind
is evaluated, and a freed record is offered. -/
def Device.deliver (d : Device) (n : Nat) (o : Order) (p : Placed) (quantity : Nat) : Device :=
  let counted := d.setOnHand o.kind (satAdd 999 (d.kind o.kind).onHand quantity)
  if o.received + quantity < o.quantity then
    (counted.putOrder n (some (afterDelivery o p quantity))).evaluate o.kind
  else ((counted.freeOrderRecord n).evaluate o.kind).offerOrders

/-- The reply fields of RECEIVE DELIVERY: on hand after it, units not counted, and the new state: PLACED
and PARTIAL keep their numbers and CLOSED follows them (R167). -/
def deliveryBytes (d : Device) (o : Order) (quantity : Nat) : List Byte :=
  let onHand := (d.kind o.kind).onHand
  toBytes 2 (satAdd 999 onHand quantity) ++ toBytes 2 (onHand + quantity - satAdd 999 onHand quantity)
    ++ toBytes 1 (if o.received + quantity < o.quantity then 2 else 3)

/-- RECEIVE DELIVERY (R167). DESIGN CHOICE (log entry 48): a quantity out of range is answered before the record is
looked at. -/
def receiveDelivery : List Byte → Device → Device × List Byte :=
  withFields [1, 2, 2] fun vs d =>
    match vs with
    | [n, serial, quantity] =>
      if quantity = 0 ∨ 999 < quantity then refuse .badField d
      else
        withOrder d n serial fun o =>
          match o.phase with
          | .proposed => refuse .state d
          | .placed p | .partially p =>
            answer (d.deliver n o p quantity) (deliveryBytes d o quantity)
    | _ => refuse .badLength d

/-- ADJUST STOCK (R168): sets the count and clears the hold, whatever the count was. DESIGN CHOICE (log entry 48): a
value out of range is answered before the kind is looked at. -/
def adjustStock : List Byte → Device → Device × List Byte :=
  withFields [1, 2] fun vs d =>
    match vs with
    | [kind, n] =>
      if Config.stockKinds ≤ kind ∨ 999 < n then refuse .badField d
      else if !(d.kindSettings kind).configured then refuse .notFound d
      else
        answer (((d.setOnHand kind n).clearHold kind).evaluate kind)
          (toBytes 2 (d.kind kind).onHand ++ toBytes 2 n)
    | _ => refuse .badLength d

/-- Marks an order as overdue (R169). -/
def Order.markOverdue (o : Order) : Order :=
  match o.phase with
  | .proposed => o
  | .placed p => { o with phase := .placed { p with marked := true } }
  | .partially p => { o with phase := .partially { p with marked := true } }

/-- The order's overdue deadline has passed and it is not marked yet. -/
def Order.overdueDue (now : Time) (o : Order) : Bool :=
  o.placedInfo.any fun p => passed now p.overdue && !p.marked

/-- OVERDUE_DEADLINE (R169). -/
def Device.overdueDeadline (d : Device) (n : Nat) : Device :=
  match d.order n with
  | none => d
  | some o =>
    if o.overdueDue d.uptime then (d.putOrder n (some o.markOverdue)).raise .orderOverdue else d

/-! ## Reading (R170) -/

def kindSettingsBytes (k : KindSettings) : List Byte :=
  [boolByte k.configured] ++ toBytes 4 k.supplier ++ toBytes 1 k.reorderPoint ++ toBytes 1 k.orderUpTo
    ++ toBytes 1 k.packSize ++ toBytes 1 k.leadTime ++ toBytes 1 k.grace

/-- READ STOCK with a kind number (R170). D of a channel counted in demand is a field that may be UNSET (R143), and so
carries its presence byte (R176). -/
def readKind (kind : Nat) (d : Device) : Device × List Byte :=
  if kind < Config.stockKinds then
    answer d (kindSettingsBytes (d.kindSettings kind) ++ toBytes 2 (d.kind kind).onHand
      ++ [boolByte (d.kind kind).hold, boolByte (d.kind kind).blocked]
      ++ toBytes 2 (d.onOrder kind) ++ toBytes 2 (d.demand kind) ++ toBytesInt 2 (d.position kind)
      ++ listBytes ((d.demandChannels kind).map fun e =>
          toBytes 1 e.1 ++ toBytes 1 e.2.1.number ++ optBytes 2 (some e.2.2)))
  else refuse .badField d

/-- READ STOCK with ALL (R170). -/
def readAllKinds (d : Device) : Device × List Byte :=
  answer d ((List.range Config.stockKinds).flatMap fun kind =>
    [boolByte (d.kindSettings kind).configured] ++ toBytes 2 (d.kind kind).onHand
      ++ toBytes 2 (d.onOrder kind) ++ toBytes 2 (d.demand kind) ++ toBytesInt 2 (d.position kind)
      ++ [boolByte (d.kind kind).hold, boolByte (d.kind kind).blocked])

/-- READ STOCK (R170): selector KIND or ALL (log entry 8). -/
def readStock (body : List Byte) (d : Device) : Device × List Byte :=
  match body with
  | [] => refuse .badLength d
  | sel :: rest =>
    match sel.toNat with
    | 0 => withFields [1] (fun vs d => readKind (vs.headD 0) d) rest d
    | 1 => withFields [] (fun _ d => readAllKinds d) rest d
    | _ => refuse .badField d

/-- An order record in a reply: the fields of R163 in order, uptimes as seconds (R170). -/
def orderBytes (d : Device) (n : Nat) (o : Order) : List Byte :=
  toBytes 1 n ++ toBytes 2 o.serial.toNat ++ toBytes 1 o.kind ++ toBytes 1 o.quantity
    ++ toBytes 1 o.received ++ toBytes 1 o.phase.number
    ++ toBytes 4 (secondsSince d.uptime o.proposedAt) ++ optBytes 4 (o.proposedWall.map (·.toNat))
    ++ optBytes 4 (o.placedInfo.map fun p => secondsSince d.uptime p.at_)
    ++ optBytes 4 ((o.placedInfo.bind Placed.wall).map (·.toNat))
    ++ optBytes 4 (o.placedInfo.map fun p => secondsLeft d.uptime p.overdue)
    ++ [boolByte (o.placedInfo.any Placed.marked)] ++ toBytes 4 (d.kindSettings o.kind).supplier

/-- The order records in use, in order of number. -/
def Device.orderList (d : Device) : List (Nat × Order) :=
  d.orders.entries.filterMap fun e => e.2.map fun o => (e.1, o)

/-- READ ORDERS (R170): the records in use follow their count. -/
def readOrders : List Byte → Device → Device × List Byte :=
  withFields [] fun _ d =>
    answer d (toBytes 2 d.orderSerial.toNat
      ++ listBytes (d.orderList.map fun e => orderBytes d e.1 e.2))

end Sys2Proof.Machine
end

