-- ==== Sys2Proof/Machine/Callouts.lean ====
section
/-! DEFINITION. The callout table (spec 03): opening, adding, freeing, deadlines, and reading. The parts
that move a printer into or out of SERVICE are in Machine/Service.lean. -/

namespace Sys2Proof.Machine

/-- The number and record of a printer's callout, if it has one (R42). -/
def Device.calloutOf (d : Device) (slot : Nat) : Option (Nat × Callout) :=
  (d.callouts.entries.filterMap fun e => e.2.map fun c => (e.1, c)).find? fun e => e.2.printer = slot

/-- The lowest-numbered free callout record (R46). -/
def Device.freeCallout (d : Device) : Option Nat :=
  (List.range Config.callouts).find? fun n => (d.callout n).isNone

/-- Some record in use holds the serial (R43). -/
def Device.calloutSerialHeld (d : Device) (serial : BitVec 16) : Bool :=
  d.callouts.entries.any fun e => e.2.any fun c => c.serial = serial

/-- The printer's latched classes whose callout flag is set under the policies in force: the remaining
set of R55, and the class set of an opening record (R46). -/
def Device.calloutClasses (d : Device) (slot : Nat) : ByClass Bool :=
  ByClass.ofFn fun cls => (d.fault slot cls).latched && (d.policy cls).callout

/-- The printer holds a latched class whose callout flag is set (R48). -/
def Device.needsVisit (d : Device) (slot : Nat) : Bool := !(d.calloutClasses slot).members.isEmpty

/-- The set's response time in seconds: the smallest response deadline among its classes (R50). -/
def Device.responseTime (d : Device) (classes : ByClass Bool) : Nat :=
  (classes.members.map fun cls => (d.policy cls).response).foldl min 1440 * 60

/-- The printer is in the pending list (R44). -/
def Device.isPending (d : Device) (slot : Nat) : Bool := d.pendingList.any fun e => e.printer = slot

/-- The printer leaves the pending list, if it is there. -/
def Device.leavePending (d : Device) (slot : Nat) : Device :=
  { d with pendingList := d.pendingList.filter fun e => e.printer ≠ slot }

/-- The values of a record that opens (R43, R46). -/
def Device.openedCallout (d : Device) (slot : Nat) (code : Option Nat) : Callout where
  serial := firstFreeSerial d.calloutSerialHeld (Config.callouts + 1) d.calloutSerial
  printer := slot
  classes := d.calloutClasses slot
  firstCode := code
  openedAt := d.uptime
  openedWall := d.wallNow
  phase := .opened (after d.uptime (d.responseTime (d.calloutClasses slot)))
  level := 0
  revisits := 0

/-- Opens record `n` for a printer (R46). -/
def Device.openCallout (d : Device) (n slot : Nat) (code : Option Nat) : Device :=
  let c := d.openedCallout slot code
  ({ d.putCallout n (some c) with calloutSerial := c.serial + 1 }).raise .calloutOpen

/-- The printer joins the tail of the pending list, unless it is already in it (R45). -/
def Device.joinPending (d : Device) (slot : Nat) (cls : FaultClass) (code : Option Nat) : Device :=
  if d.isPending slot then d
  else { d with pendingList := d.pendingList ++ [⟨slot, cls, code, d.uptime⟩] }

/-- Opens a record for a printer, or puts it in the pending list when none is free (R45, R55). -/
def Device.openOrPend (d : Device) (slot : Nat) (cls : FaultClass) (code : Option Nat) : Device :=
  match d.freeCallout with
  | some n => d.openCallout n slot code
  | none => d.joinPending slot cls code

/-- A class joins a record; in OPEN and DISPATCHED the deadline becomes the earlier of its value and now
plus the class's response deadline (R45, R47). -/
def Callout.addClass (c : Callout) (cls : FaultClass) (limit : Time) : Callout :=
  { c with
    classes := c.classes.set true cls
    phase :=
      match c.phase with
      | .opened t => .opened (earlier t limit)
      | .dispatched t => .dispatched (earlier t limit)
      | .attended tech => .attended tech }

/-- The callout table takes one latching (R45). -/
def Device.takeLatching (d : Device) (slot : Nat) (cls : FaultClass) : Device :=
  if !(d.policy cls).callout then d
  else
    match d.calloutOf slot with
    | some (n, c) =>
      d.putCallout n (some (c.addClass cls (after d.uptime ((d.policy cls).response * 60))))
    | none =>
      if (d.printer slot).inService then d
      else d.openOrPend slot cls (d.fault slot cls).code

/-- Hands on, in the class order of R28, each class of a printer that is latched now and was not latched
in `old` (R36). -/
def Device.handLatchings (d : Device) (slot : Nat) (old : ByClass Bool) : Device :=
  FaultClass.all.foldl
    (fun d cls =>
      if (d.fault slot cls).latched && !old.get cls then d.takeLatching slot cls else d) d

/-- Offers a freed record to the pending list (R48): entries whose printer needs no visit leave, and the
first other entry's printer receives the record. -/
def Device.offerCallout (d : Device) : Device :=
  match d.pendingList.dropWhile fun e => !d.needsVisit e.printer with
  | [] => { d with pendingList := [] }
  | e :: rest =>
    match d.freeCallout with
    | some n => ({ d with pendingList := rest }).openCallout n e.printer e.code
    | none => d

/-- Frees a record and offers it to the pending list (R48). -/
def Device.freeCalloutRecord (d : Device) (n : Nat) : Device := (d.putCallout n none).offerCallout

/-- Frees the printer's record, if it has one (R17, R55, R56). -/
def Device.freeCalloutOf (d : Device) (slot : Nat) : Device :=
  match d.calloutOf slot with
  | some (n, _) => d.freeCalloutRecord n
  | none => d

/-- After CLEAR FAULT a pending printer without a latched callout-flag class leaves the list (R49). -/
def Device.afterClearFault (d : Device) (slot : Nat) : Device :=
  if d.needsVisit slot then d else d.leavePending slot

/-! ## Deadlines (R50, R51) -/

/-- The running deadline of a record, absent in ATTENDED. -/
def Callout.deadline (c : Callout) : Option Time :=
  match c.phase with
  | .opened t | .dispatched t => some t
  | .attended _ => none

/-- A record escalates: its level rises, held at 3, and its deadline restarts (R51). -/
def Callout.escalated (c : Callout) (deadline : Time) : Callout :=
  { c with
    level := min 3 (c.level + 1)
    phase :=
      match c.phase with
      | .opened _ => .opened deadline
      | .dispatched _ => .dispatched deadline
      | .attended tech => .attended tech }

/-- ESCALATION (R51): the deadline of the record passes and restarts from the deadline that passed. -/
def Device.escalation (d : Device) (n : Nat) : Device :=
  match d.callout n with
  | none => d
  | some c =>
    match c.deadline with
    | none => d
    | some t =>
      if passed d.uptime t then
        (d.putCallout n (some (c.escalated (after t (d.responseTime c.classes))))).raise .escalated
      else d

/-! ## Requests (R52, R58) -/

/-- The number and record that hold a serial (R43). -/
def Device.calloutBySerial (d : Device) (serial : Nat) : Option (Nat × Callout) :=
  (d.callouts.entries.filterMap fun e => e.2.map fun c => (e.1, c)).find? fun e =>
    e.2.serial.toNat = serial

/-- DISPATCH CALLOUT (R52). -/
def dispatchCallout : List Byte → Device → Device × List Byte :=
  withFields [2] fun vs d =>
    match d.calloutBySerial (vs.headD 0) with
    | none => refuse .notFound d
    | some (n, c) =>
      match c.phase with
      | .opened _ =>
        answer (d.putCallout n (some { c with
            phase := .dispatched (after d.uptime (d.responseTime c.classes)) }))
          (toBytes 4 (d.responseTime c.classes))
      | .dispatched _ | .attended _ => refuse .state d

/-- The technician of an ATTENDED record. -/
def Callout.technician (c : Callout) : Option Nat :=
  match c.phase with
  | .attended t => some t
  | .opened _ | .dispatched _ => none

/-- A callout record in a reply: the fields of R42 in order, times as seconds (R58). -/
def calloutBytes (d : Device) (n : Nat) (c : Callout) : List Byte :=
  toBytes 1 n ++ toBytes 2 c.serial.toNat ++ toBytes 1 c.printer ++ classSetBytes c.classes
    ++ optBytes 2 c.firstCode ++ toBytes 4 (secondsSince d.uptime c.openedAt)
    ++ optBytes 4 (c.openedWall.map (·.toNat)) ++ toBytes 1 c.phase.number ++ toBytes 1 c.level
    ++ optBytes 4 (c.deadline.map (secondsLeft d.uptime)) ++ toBytes 1 c.revisits
    ++ optBytes 2 c.technician

/-- The zero bytes that stand for an absent callout record: one with an empty class set (R176). -/
def absentCalloutBytes : List Byte := toBytes 28 0

/-- The callout records in use, in order of number. -/
def Device.calloutList (d : Device) : List (Nat × Callout) :=
  d.callouts.entries.filterMap fun e => e.2.map fun c => (e.1, c)

def pendingBytes (d : Device) (e : PendingEntry) : List Byte :=
  toBytes 1 e.printer ++ toBytes 1 e.cls.number ++ optBytes 2 e.code
    ++ toBytes 4 (secondsSince d.uptime e.joined)

/-- The position of a printer in the pending list. -/
def Device.pendingPosition (d : Device) (slot : Nat) : Option Nat :=
  d.pendingList.findIdx? fun e => e.printer = slot

/-- READ CALLOUTS with PENDING (R58). -/
def readPending (start : Nat) (d : Device) : Device × List Byte :=
  if 127 < start then refuse .badField d
  else
    answer d (toBytes 1 d.pendingList.length
      ++ listBytes (((d.pendingList.drop start).take 64).map (pendingBytes d)))

/-- READ CALLOUTS with PRINTER (R58). -/
def readCalloutOf (slot : Nat) (d : Device) : Device × List Byte :=
  if Config.printers ≤ slot then refuse .badField d
  else
    answer d ((match d.calloutOf slot with
        | some (n, c) => 1 :: calloutBytes d n c
        | none => 0 :: absentCalloutBytes)
      ++ optBytes 1 (d.pendingPosition slot) ++ [boolByte (d.printer slot).inService])

/-- READ CALLOUTS (R58): selector RECORDS, PENDING or PRINTER. -/
def readCallouts (body : List Byte) (d : Device) : Device × List Byte :=
  match body with
  | [] => refuse .badLength d
  | sel :: rest =>
    match sel.toNat with
    | 0 =>
      withFields [] (fun _ d =>
        answer d (toBytes 2 d.calloutSerial.toNat
          ++ listBytes (d.calloutList.map fun e => calloutBytes d e.1 e.2))) rest d
    | 1 => withFields [1] (fun vs d => readPending (vs.headD 0) d) rest d
    | 2 => withFields [1] (fun vs d => readCalloutOf (vs.headD 0) d) rest d
    | _ => refuse .badField d

end Sys2Proof.Machine
end

