-- ==== Sys2Proof/Machine/Charging.lean ====
section
/-! DEFINITION. The charge unit (spec 05): budgets, the charge computation, admission, settlement, and its
requests. -/

namespace Sys2Proof.Machine

/-! ## Usability and budgets (R64, R65) -/

/-- An account is usable while it and its tenant are active and it is not locked (R64). -/
def Device.usable (d : Device) (account : Nat) : Bool :=
  (d.accountSettings account).active && (d.tenantSettings (d.accountSettings account).tenant).active
    && (d.accountTotals account).lockedUntil.isNone

/-- A remaining budget from allowance, used and reserved; `none` is infinite (R65). -/
def remainingOf (allowance used reserved : Nat) : Option Int :=
  if allowance = Config.unlimited then none else some ((allowance : Int) - used - reserved)

def Device.accountRemaining (d : Device) (account : Nat) : Option Int :=
  remainingOf (d.accountSettings account).allowance (d.accountTotals account).used
    (d.accountTotals account).reserved

def Device.tenantRemaining (d : Device) (tenant : Nat) : Option Int :=
  remainingOf (d.tenantSettings tenant).allowance (d.tenantTotals tenant).used
    (d.tenantTotals tenant).reserved

/-- A remaining budget in a reply: eight bytes, UNLIMITED as its value (R78, R176). -/
def budgetBytes : Option Int → List Byte
  | some i => toBytesInt 8 i
  | none => toBytes 8 Config.unlimited

/-! ## The charge computation (R83, R84) -/

/-- The values of the seven stages, as QUOTE returns them (R93). -/
structure ChargeSteps where
  sides : Nat
  duplexed : Nat
  base : Nat
  credit : Nat
  net : Nat
  scaled : Nat
  rounded : Nat
  raised : Bool
  capped : Bool
  charge : Nat
  deriving DecidableEq, Repr

/-- Stage 2: t minus s, clamped to 0 to s. -/
def duplexedSheets (sides sheets : Nat) : Nat := min sheets (sides - sheets)

/-- Stage 3's base. -/
def chargeBase (r : Rates) (m c s : Nat) : Nat := m * r.rm + c * r.rc + s * r.rs

/-- Stage 4. -/
def scaleNet (size : SizeClass) (r : Rates) (net : Nat) : Nat :=
  match size with
  | .standard => net
  | .large => net * r.lf / 16

/-- Stages 1 to 7 for a job with at least one side; with t = 0 every value is 0 (R83, R93). -/
def chargeSteps (r : Rates) (size : SizeClass) (m c s : Nat) : ChargeSteps :=
  if m + c = 0 then ⟨0, 0, 0, 0, 0, 0, 0, false, false, 0⟩
  else
    let dup := duplexedSheets (m + c) s
    let base := chargeBase r m c s
    let credit := dup * r.dc
    let net := base - credit
    let scaled := scaleNet size r net
    let rounded := (scaled + 50) / 100
    let least := max rounded r.mc
    ⟨m + c, dup, base, credit, net, scaled, rounded, rounded < r.mc, 65535 < least, min 65535 least⟩

/-- The charge of a job in CU (R84). -/
def charge (r : Rates) (size : SizeClass) (m c s : Nat) : Nat := (chargeSteps r size m c s).charge

/-- Actual counts are clamped to 0 to 9,999 before a settlement (R86). -/
def clampCount (n : Nat) : Nat := min 9999 n

def clampTotals (t : Totals) : Totals := ⟨clampCount t.mono, clampCount t.colour, clampCount t.sheets⟩

/-- The estimate of a ticket at a printer: its submitted counts with the rates of the printer's class as
they stand (R85). -/
def Device.estimate (d : Device) (t : Ticket) (slot : Nat) : Nat :=
  charge (d.rates (d.settings slot).rateClass) t.size t.mono t.colour t.sheets

/-- The settlement of a ticket at its class snapshot with actual counts (R86). -/
def settlementOf (t : Ticket) (a : Admitted) (counts : Totals) : Nat :=
  charge a.snapRates t.size (clampTotals counts).mono (clampTotals counts).colour
    (clampTotals counts).sheets

/-! ## Admission (R87 to R90) -/

/-- The verdicts of the charge unit (R88). -/
inductive Verdict where
  | admitted | quotaAccount | quotaTenant
  deriving DecidableEq, Repr

/-- An estimate is at most a remaining budget. -/
def within (estimate : Nat) : Option Int → Bool
  | none => true
  | some r => (estimate : Int) ≤ r

/-- The verdict on an estimate for an account (R88). -/
def Device.verdict (d : Device) (account estimate : Nat) : Verdict :=
  if estimate = 0 then .admitted
  else if !within estimate (d.accountRemaining account) then .quotaAccount
  else if !within estimate (d.tenantRemaining (d.accountSettings account).tenant) then .quotaTenant
  else .admitted

/-- Changes the reserved totals of an account and of its tenant. -/
def Device.modReserved (d : Device) (account : Nat) (f : Nat → Nat) : Device :=
  (d.modAccount account fun a => { a with reserved := f a.reserved }).modTenant
    (d.accountSettings account).tenant fun t => { t with reserved := f t.reserved }

/-- An admission raises both reserved totals by the estimate (R89). -/
def Device.reserve (d : Device) (account estimate : Nat) : Device :=
  d.modReserved account (· + estimate)

/-- A returned reservation lowers both reserved totals (R90). -/
def Device.unreserve (d : Device) (account reservation : Nat) : Device :=
  d.modReserved account (· - reservation)

/-! ## Settlement (R91, R92) -/

/-- A remaining budget went from above 0 to 0 or below; an infinite one never does (R91). -/
def crossedZero : Option Int → Option Int → Bool
  | some before, some now => 0 < before && now ≤ 0
  | _, _ => false

/-- The totals after a settlement: reserved falls by the reservation, used rises by the charge (R91). At a settings
load that has moved the owner, the tenant is the loaded one (log entry 41). -/
def Device.applyCharge (d : Device) (account reservation cu : Nat) : Device :=
  ((d.unreserve account reservation).modAccount account fun a =>
      { a with used := satAdd Config.max32 a.used cu }).modTenant
    (d.accountSettings account).tenant fun t => { t with used := satAdd Config.max32 t.used cu }

/-- An entry joins the exhaustion list; when it is full, the oldest is dropped and counted (R92). -/
def Device.addExhaustion (d : Device) (e : Exhaustion) : Device :=
  if d.exhaustions.length < Config.exhaustionRoom then
    { d with exhaustions := d.exhaustions ++ [e] }
  else
    { d with
      exhaustions := d.exhaustions.drop 1 ++ [e]
      exhaustionsDropped := satAdd 255 d.exhaustionsDropped 1 }

/-- Which budgets a settlement crossed, comparing the device before and after it (R91). -/
def crossedBudgets (before now : Device) (account : Nat) : Option Crossed :=
  let tenant := (before.accountSettings account).tenant
  match crossedZero (before.accountRemaining account) (now.accountRemaining account),
    crossedZero (before.tenantRemaining tenant) (now.tenantRemaining tenant) with
  | true, true => some .both
  | true, false => some .account
  | false, true => some .tenant
  | false, false => none

/-- Settles a charge against an account and its tenant (R91): a crossing raises QUOTA_EXHAUSTED once and
adds one entry to the exhaustion list. -/
def Device.settle (d : Device) (account reservation cu : Nat) : Device :=
  let now := d.applyCharge account reservation cu
  match crossedBudgets d now account with
  | none => now
  | some crossed =>
    (now.addExhaustion ⟨account, (d.accountSettings account).tenant, crossed, cu, reservation,
      d.uptime⟩).raise .quotaExhausted

/-! ## Requests (R82, R93, R94) -/

def ratesBytes (r : Rates) : List Byte :=
  toBytes 2 r.rm ++ toBytes 2 r.rc ++ toBytes 2 r.rs ++ toBytes 2 r.dc ++ toBytes 1 r.lf
    ++ toBytes 1 r.mc

/-- A class and rate record in range (R82); the two-byte and one-byte fields hold the other ranges. -/
def ratesInRange (cls : Nat) (r : Rates) : Bool :=
  cls < Config.classes && r.rm ≤ 65535 && r.rc ≤ 65535 && r.rs ≤ 65535 && r.dc ≤ 65535
    && 16 ≤ r.lf && r.lf ≤ 64 && r.mc ≤ 255

/-- Writes a class rate record in the working copy. -/
def Device.putRates (d : Device) (cls : Nat) (r : Rates) : Device :=
  { d with work := { d.work with rates := d.work.rates.put {} cls r } }

/-- SET CLASS (R82). -/
def setClass : List Byte → Device → Device × List Byte :=
  withFields [1, 2, 2, 2, 2, 1, 1] fun vs d =>
    match vs with
    | [cls, rm, rc, rs, dc, lf, mc] =>
      if ratesInRange cls ⟨rm, rc, rs, dc, lf, mc⟩ then
        unlessSaving d (answer (d.putRates cls ⟨rm, rc, rs, dc, lf, mc⟩) [])
      else refuse .badField d
    | _ => refuse .badLength d

/-- The tickets in flight whose snapshot holds the class (R94). -/
def Device.inFlightAt (d : Device) (cls : Nat) : List Admitted :=
  (d.ticketList.filterMap fun e => e.2.phase.admitted).filter fun a => a.snapClass = cls

def exhaustionBytes (e : Exhaustion) : List Byte :=
  toBytes 2 e.account ++ toBytes 1 e.tenant ++ toBytes 1 e.crossed.number ++ toBytes 2 e.charge
    ++ toBytes 2 e.reservation ++ toBytes 4 e.at_.toNat

/-- READ CLASS with CLASS (R94). -/
def readClassRates (cls : Nat) (d : Device) : Device × List Byte :=
  if cls < Config.classes then
    answer d (ratesBytes (d.rates cls) ++ toBytes 2 (d.inFlightAt cls).length
      ++ toBytes 2 ((d.inFlightAt cls).filter fun a => a.snapRates ≠ d.rates cls).length)
  else refuse .badField d

/-- READ CLASS with EXHAUSTED: the list and dropped count, which are then emptied (R92, R94). -/
def readExhausted (d : Device) : Device × List Byte :=
  answer { d with exhaustions := [], exhaustionsDropped := 0 }
    (toBytes 1 d.exhaustionsDropped ++ listBytes (d.exhaustions.map exhaustionBytes))

/-- READ CLASS (R94): selector CLASS or EXHAUSTED. -/
def readClass (body : List Byte) (d : Device) : Device × List Byte :=
  match body with
  | [] => refuse .badLength d
  | sel :: rest =>
    match sel.toNat with
    | 0 => withFields [1] (fun vs d => readClassRates (vs.headD 0) d) rest d
    | 1 => withFields [] (fun _ d => readExhausted d) rest d
    | _ => refuse .badField d

def Verdict.number : Verdict → Nat
  | .admitted => 0
  | .quotaAccount => 1
  | .quotaTenant => 2

/-- The intermediate values of a QUOTE reply (R93). -/
def quoteBytes (q : ChargeSteps) : List Byte :=
  toBytes 2 q.sides ++ toBytes 2 q.duplexed ++ toBytes 4 q.base ++ toBytes 4 q.credit
    ++ toBytes 4 q.net ++ toBytes 8 q.scaled ++ toBytes 4 q.rounded ++ [boolByte q.raised]
    ++ [boolByte q.capped] ++ toBytes 2 q.charge

/-- The budgets and verdict of a QUOTE reply, each with a presence byte (R93, R176). -/
def quoteBudgets (d : Device) (q : ChargeSteps) : Option Nat → List Byte
  | none => 0 :: toBytes 8 0 ++ 0 :: toBytes 8 0 ++ [0, 0]
  | some a =>
    1 :: budgetBytes (d.accountRemaining a)
      ++ 1 :: budgetBytes (d.tenantRemaining (d.accountSettings a).tenant)
      ++ [1, BitVec.ofNat 8 (d.verdict a q.charge).number]

/-- A QUOTE with its fields in range (R93). -/
def quoteTaken (cls m c s : Nat) (size : SizeClass) (account : Option Nat) (d : Device) :
    Device × List Byte :=
  let q := chargeSteps (d.rates cls) size m c s
  answer d (quoteBytes q ++ quoteBudgets d q account)

/-- QUOTE (R93). -/
def quote : List Byte → Device → Device × List Byte :=
  withFields [1, 2, 2, 2, 1, 1, 2] fun vs d =>
    match vs with
    | [cls, m, c, s, size, pres, acct] =>
      match SizeClass.ofNumber size, optOf pres acct with
      | some sz, some account =>
        if cls < Config.classes ∧ m ≤ 9999 ∧ c ≤ 9999 ∧ s ≤ 9999 ∧
            account.all (· < Config.accounts) then
          quoteTaken cls m c s sz account d
        else refuse .badField d
      | _, _ => refuse .badField d
    | _ => refuse .badLength d

end Sys2Proof.Machine
end

