-- ==== Sys2Proof/Machine/Queues.lean ====
section
/-! DEFINITION. The ticket store's movements (spec 06): departures, returns to HELD, expiry, settlement from
the accumulators, the release queues, promotion, the grant queue and its waiting list. -/

namespace Sys2Proof.Machine

/-! ## Departures (R98, R102, R103) -/

/-- A departure joins the removal list; when it is full, the oldest is dropped and counted (R103). -/
def Device.addRemoval (d : Device) (r : Removal) : Device :=
  if d.removals.length < Config.removalRoom then { d with removals := d.removals ++ [r] }
  else
    { d with
      removals := d.removals.drop 1 ++ [r]
      removalsDropped := satAdd 255 d.removalsDropped 1 }

/-- The stall timing of a printer ends: the last-advance time is absent and STALL inactive (R10). -/
def Device.endStall (d : Device) (slot : Nat) : Device :=
  (d.modPrinter slot fun p => { p with lastAdvance := none }).hand slot .stall false

/-- Takes a ticket out of its release queue, and a PRINTING one out of the grant queue; its printer's
stall timing ends (R98). Removing an entry of a taken grant finds none. -/
def Device.leaveQueue (d : Device) (n : Nat) : TicketPhase → Device
  | .held => d
  | .queued a => d.putQueue a.printer ((d.queue a.printer).filter (· ≠ n))
  | .printing a _ _ =>
    ({ d.putQueue a.printer ((d.queue a.printer).filter (· ≠ n)) with
        grants := d.grants.filter fun g => g.ticket ≠ n }).endStall a.printer

/-- A ticket leaves the store (R98): its queue, its grant entry, its owner's held count, its slot. The
reservation has been returned or settled before. -/
def Device.depart (d : Device) (n : Nat) (t : Ticket) : Device :=
  ((d.leaveQueue n t.phase).modAccount t.owner fun a => { a with held := a.held - 1 }).putTicket n none

/-- A departure that the removal list records (R103). -/
def Device.departListed (d : Device) (n : Nat) (t : Ticket) (reason : RemovalReason)
    (cu : Option Nat) : Device :=
  (d.depart n t).addRemoval ⟨t.jobId, t.owner, n, reason, cu, d.uptime⟩

/-- A HELD ticket expires (R102). -/
def Device.expire (d : Device) (n : Nat) (t : Ticket) : Device :=
  (d.departListed n t .expired none).raise .expired

/-- Returns the reservation of a ticket in flight (R90). -/
def Device.returnReservation (d : Device) (t : Ticket) : Device :=
  match t.phase.admitted with
  | some a => d.unreserve t.owner a.reservation
  | none => d

/-! ## Returns to HELD (R112, R118) -/

/-- The ticket back in HELD, with the reprint mark where it is given (R112, R118). -/
def Ticket.backToHeld (t : Ticket) (reprint : Bool) : Ticket :=
  { t with phase := .held, reprint := t.reprint || reprint }

/-- A ticket in flight returns to HELD: it leaves its queue, its reservation is returned, and it expires at
once when its expiry deadline has passed (R102, R112). -/
def Device.toHeld (d : Device) (n : Nat) (t : Ticket) (reprint : Bool) : Device :=
  let now := ((d.leaveQueue n t.phase).returnReservation t).putTicket n (some (t.backToHeld reprint))
  if passed d.uptime t.expiry then now.expire n (t.backToHeld reprint) else now

/-- The ticket's slot is one whose ticket is QUEUED with the wanted colour. -/
def Device.returnable (d : Device) (keepsMono : Bool) (n : Nat) : Bool :=
  (d.ticket n).any fun t =>
    match t.phase with
    | .queued _ => !(keepsMono && t.colour = 0)
    | .held | .printing _ _ _ => false

/-- Returns the given tickets to HELD, in order. -/
def Device.toHeldAll (d : Device) (ns : List Nat) : Device :=
  ns.foldl (fun d n =>
    match d.ticket n with
    | some t => d.toHeld n t false
    | none => d) d

/-- The QUEUED tickets that a printer's state does not take go back to HELD (R112). -/
def Device.returnUnprintable (d : Device) (slot : Nat) : Device :=
  if d.releasable slot true then d
  else d.toHeldAll ((d.queue slot).filter (d.returnable (d.releasable slot false)))

/-- The printer's accumulators stand at 0 (R54, R118). -/
def Totals.isZero (t : Totals) : Bool := t.mono = 0 && t.colour = 0 && t.sheets = 0

/-- Settles a ticket in flight with actual counts and takes it out of the store (R91, R98). -/
def Device.settleTicket (d : Device) (n : Nat) (t : Ticket) (a : Admitted) (counts : Totals)
    (reason : Option RemovalReason) : Device :=
  let cu := settlementOf t a counts
  match reason with
  | some r => (d.settle t.owner a.reservation cu).departListed n t r (some cu)
  | none => (d.settle t.owner a.reservation cu).depart n t

/-- Ends a PRINTING ticket from its printer's accumulators: back to HELD with the reprint mark when all are
0, else settled from them (R54, R118, R122). -/
def Device.endFromAccumulators (d : Device) (n : Nat) (t : Ticket) (a : Admitted)
    (reason : RemovalReason) : Device :=
  if (d.printer a.printer).printing.isZero then d.toHeld n t true
  else d.settleTicket n t a (d.printer a.printer).printing (some reason)

/-! ## Promotion (R113, R114) -/

/-- The head of a queue with its ticket, when it is QUEUED and the printer is releasable for it. -/
def Device.promotable (d : Device) (slot : Nat) : Option (Nat × Ticket × Admitted) :=
  match d.queue slot with
  | [] => none
  | n :: _ =>
    match d.ticket n with
    | none => none
    | some t =>
      match t.phase with
      | .queued a => if d.releasable slot (0 < t.colour) then some (n, t, a) else none
      | .held | .printing _ _ _ => none

/-- Promotes a queue's head to PRINTING (R113). -/
def Device.promote (d : Device) (slot n : Nat) (t : Ticket) (a : Admitted) : Device :=
  let deadline := after d.uptime (d.work.completionMinutes * 60)
  let started := (d.putTicket n (some { t with phase := .printing a false deadline })).modPrinter slot
    fun p => { p with printing := {} }
  ({ started with
      grants := d.grants ++ [Grant.mk t.jobId n slot]
      waiting := d.waiting.filter (· ≠ slot) }).raise .grantsWaiting

/-- Considers a printer's queue for promotion (R113, R114): the head is promoted, or the printer waits for
room in the grant queue, or it leaves the waiting list. DESIGN CHOICE (log entry 43): a waiting printer whose head
has gone and whose new head could be promoted keeps its place in the list. -/
def Device.consider (d : Device) (slot : Nat) : Device :=
  match d.promotable slot with
  | none => { d with waiting := d.waiting.filter (· ≠ slot) }
  | some (n, t, a) =>
    if d.grants.length < Config.grantRoom then d.promote slot n t a
    else if d.waiting.contains slot then d
    else { d with waiting := d.waiting ++ [slot] }

/-- Hands room in the grant queue to the waiting printers, oldest first, while there is room (R114). -/
def Device.handRoom (d : Device) : Device :=
  d.waiting.foldl
    (fun d slot => if d.grants.length < Config.grantRoom then d.consider slot else d) d

/-- After tickets have left a printer's queue: room goes to the waiting list first, then the queue is
considered (R98, R114). -/
def Device.afterLeaving (d : Device) (slot : Nat) : Device := d.handRoom.consider slot

end Sys2Proof.Machine
end

