-- ==== Sys2Proof/Machine/Fleet.lean ====
section
/-! DEFINITION. The fleet table (spec 01) without its requests: the printer state and what its change does,
the detectors, and the deadlines of silence and stall. -/

namespace Sys2Proof.Machine

/-! ## Printer state (R12, R13) -/

/-- Some colour channel of the channel set has level P = 0 (R12). -/
def Device.colourEmpty (d : Device) (slot : Nat) : Bool :=
  Channel.all.any fun ch =>
    ch.isColour && (d.settings slot).channels.get ch
      && ((d.printer slot).forecasts.get ch).p = some 0

/-- The state that the conditions of R12 give, the first that holds. -/
def Device.derive (d : Device) (slot : Nat) : PrinterState :=
  if !d.configured slot then .unconfigured
  else if (d.printer slot).retired then .retired
  else if (d.printer slot).inService then .service
  else if !(d.latchedSet slot).members.isEmpty then .faulted
  else if !(d.holdoffSet slot).members.isEmpty then .holdoff
  else if d.colourEmpty slot then .degradedMono
  else .online

/-- On entry to SERVICE the PRINTING ticket ends from the accumulators (R54). -/
def Device.endForService (d : Device) (slot : Nat) : Device :=
  match d.printingTicket slot with
  | some (n, t) =>
    match t.phase with
    | .printing a _ _ => d.endFromAccumulators n t a .serviceSettled
    | .held | .queued _ => d
  | none => d

/-- What a new printer state takes from the release queue (R54, R112), without promotion. -/
def Device.queueTakesState (d : Device) (slot : Nat) : Device :=
  if (d.printer slot).derived = .service then (d.endForService slot).returnUnprintable slot
  else d.returnUnprintable slot

/-- A changed printer state is stored, raises STATE_CHANGED and is handed to the release queue (R13); the
queue is not considered for promotion yet. -/
def Device.changeState (d : Device) (slot : Nat) (st : PrinterState) : Device :=
  ((d.modPrinter slot fun p => { p with derived := st }).raise .stateChanged slot).queueTakesState slot

/-- Derives a printer's state again; a change acts as R13 states, and its queue is then considered. -/
def Device.rederive (d : Device) (slot : Nat) : Device :=
  if d.derive slot = (d.printer slot).derived then d
  else (d.changeState slot (d.derive slot)).afterLeaving slot

/-- Ends an event at a printer: latchings are handed on, and the state is derived once (R13, R36). `before`
is the device as the event found it. -/
def Device.finishEvent (before : Device) (slot : Nat) (d : Device) : Device :=
  (d.handLatchings slot (before.latchedSet slot)).rederive slot

/-! ## Detectors (R8, R10, R11, R27) -/

/-- SERVICE_DUE is active: the interval is not 0 and sides since service reach it (R11). -/
def Device.serviceIsDue (d : Device) (slot : Nat) : Bool :=
  (d.settings slot).serviceInterval ≠ 0
    && (d.settings slot).serviceInterval * 1000 ≤ (d.printer slot).sinceService

def Device.handServiceDue (d : Device) (slot : Nat) : Device :=
  d.hand slot .serviceDue (d.serviceIsDue slot)

/-- SUPPLY_EMPTY is active: an essential channel of the channel set has P = 0 (R27). -/
def Device.supplyIsEmpty (d : Device) (slot : Nat) : Bool :=
  Channel.all.any fun ch =>
    ch.isEssential && (d.settings slot).channels.get ch
      && ((d.printer slot).forecasts.get ch).p = some 0

def Device.handSupplyEmpty (d : Device) (slot : Nat) : Device :=
  d.hand slot .supplyEmpty (d.supplyIsEmpty slot)

/-- CONSUMPTION is active: a channel of the printer is consumption-active (R148). -/
def Device.isConsuming (d : Device) (slot : Nat) : Bool :=
  Channel.all.any fun ch => ((d.printer slot).forecasts.get ch).consuming

def Device.handConsumption (d : Device) (slot : Nat) : Device :=
  d.hand slot .consumption (d.isConsuming slot)

/-- SILENCE is active: the missed count is at or above the limit (R8, R9). -/
def Device.handSilence (d : Device) (slot : Nat) : Device :=
  d.hand slot .silence ((d.settings slot).missedLimit ≤ (d.printer slot).missed)

/-! ## Low and out (R151) -/

/-- Some channel of the channel set has D set and at most the low-supply warning. -/
def Device.isLow (d : Device) (slot : Nat) : Bool :=
  d.live slot && Channel.all.any fun ch =>
    (d.settings slot).channels.get ch
      && ((d.printer slot).forecasts.get ch).days.any (· ≤ d.work.forecast.lowWarning)

/-- Some channel of the channel set has P = 0. -/
def Device.isOut (d : Device) (slot : Nat) : Bool :=
  d.live slot && Channel.all.any fun ch =>
    (d.settings slot).channels.get ch && ((d.printer slot).forecasts.get ch).p = some 0

/-- Evaluates the low and out causes; each flag is raised as the printer becomes low or out (R151). -/
def Device.evaluateSupplyFlags (d : Device) (slot : Nat) : Device :=
  let was := d.printer slot
  let stored := d.modPrinter slot fun p => { p with low := d.isLow slot, out := d.isOut slot }
  let lowRaised := if d.isLow slot && !was.low then stored.raise .supplyLow slot else stored
  if d.isOut slot && !was.out then lowRaised.raise .supplyOut slot else lowRaised

/-! ## Silence and stall deadlines (R8, R10) and holdoffs (R33) -/

/-- The missed count rises and the deadline restarts from the one that passed (R8). -/
def Printer.missReport (p : Printer) (deadline : Time) : Printer :=
  { p with missed := min 15 (p.missed + 1), silenceDeadline := some deadline }

/-- SILENCE_EXPIRY (R8): below the limit the class stays inactive. -/
def Device.silenceExpiry (d : Device) (slot : Nat) : Device :=
  match (d.printer slot).silenceDeadline with
  | none => d
  | some t =>
    if d.live slot && passed d.uptime t then
      Device.finishEvent d slot
        ((d.modPrinter slot fun p =>
          p.missReport (after t (d.settings slot).reportInterval)).handSilence slot)
    else d

/-- The stall time has run out since the last advance (R10). -/
def Device.stallDue (d : Device) (slot : Nat) : Bool :=
  (d.printer slot).lastAdvance.any fun t => passed d.uptime (after t d.work.stallTime)

/-- Hands STALL as active when the stall time has run out; no further expiry is raised while it is active
(R10). -/
def Device.checkStall (d : Device) (slot : Nat) : Device :=
  if d.stallDue slot then Device.finishEvent d slot (d.hand slot .stall true) else d

/-- STALL_EXPIRY (R10). -/
def Device.stallExpiry (d : Device) (slot : Nat) : Device := d.checkStall slot

/-- HOLDOFF_EXPIRY (R33). -/
def Device.holdoffExpiry (d : Device) (slot : Nat) (cls : FaultClass) : Device :=
  match (d.fault slot cls).holdoff with
  | none => d
  | some t =>
    if passed d.uptime t then
      Device.finishEvent d slot
        (d.putFault slot cls (FaultRecord.holdoffPassed (d.policy cls) t (d.fault slot cls)))
    else d

/-! ## A slot's records at its initial values (R3, R14, R16, R143) -/

/-- The records of a slot that becomes configured: the initial values, with the silence deadline running
(R3, R14). The derived state is kept until it is derived again. -/
def Printer.fresh (p : Printer) (deadline : Time) : Printer :=
  { derived := p.derived, silenceDeadline := some deadline }

/-- The records of a slot that becomes unconfigured (R16). -/
def Printer.cleared (p : Printer) : Printer := { derived := p.derived }

/-- A channel added to or removed from the channel set: its forecast record takes its initial values and
its absence mark is dropped (R15, R143). -/
def Printer.resetChannel (p : Printer) (ch : Channel) : Printer :=
  { p with forecasts := p.forecasts.set {} ch, marks := p.marks.set false ch }

/-- Resets every channel whose membership differs between two channel sets (R15, R20). -/
def Printer.resetChannels (p : Printer) (was now : ByChannel Bool) : Printer :=
  Channel.all.foldl (fun p ch => if was.get ch = now.get ch then p else p.resetChannel ch) p

end Sys2Proof.Machine
end

