-- ==== Sys2Proof/Machine/Forecast.lean ====
section
/-! DEFINITION. The forecast unit (spec 08): levels, installs, drops, days to empty, the day rollover and its
requests. -/

namespace Sys2Proof.Machine

/-! ## Days to empty (R144, R149) -/

/-- The relevant side count of a channel (R144). -/
def relevantSides (ch : Channel) (mono colour : Nat) : Nat := if ch.isColour then colour else mono + colour

/-- The relevant throughput of a channel (R144). -/
def Printer.throughput (p : Printer) (ch : Channel) : Option Nat :=
  if ch.isColour then p.throughputColour else p.throughputAll

/-- Days to empty from level, rate and throughput; the first case that holds (R149). -/
def daysToEmpty (p rate throughput : Option Nat) : Option Nat :=
  match p, rate, throughput with
  | none, _, _ => none
  | some 0, _, _ => some 0
  | some _, none, _ => none
  | some _, some _, none => some Config.farDays
  | some l, some r, some t => if t = 0 then some Config.farDays else some (min Config.farDays (l * r / t))

/-- The forecast record with D recomputed at a printer (R149). -/
def Device.withDays (d : Device) (slot : Nat) (ch : Channel) (f : Forecast) : Forecast :=
  { f with days := daysToEmpty f.p f.rate ((d.printer slot).throughput ch) }

def Device.forecast (d : Device) (slot : Nat) (ch : Channel) : Forecast :=
  (d.printer slot).forecasts.get ch

def Device.putForecast (d : Device) (slot : Nat) (ch : Channel) (f : Forecast) : Device :=
  d.modPrinter slot fun p => { p with forecasts := p.forecasts.set f ch }

/-! ## Handing a change on (R148, R150) -/

/-- SUPPLY_EMPTY is evaluated again when P of an essential channel changed (R27, R150). -/
def Device.handLevelChange (d : Device) (slot : Nat) (ch : Channel) (old new : Option Nat) : Device :=
  if ch.isEssential && old ≠ new then d.handSupplyEmpty slot else d

/-- A change of D across the lead time moves the demand of the channel's kind, which is evaluated
(R150, R160). -/
def Device.handDaysChange (d : Device) (slot : Nat) (ch : Channel) (old new : Option Nat) : Device :=
  match (d.settings slot).kinds.get ch with
  | none => d
  | some kind =>
    let lead := (d.kindSettings kind).leadTime
    if countsInDemand lead old = countsInDemand lead new then d else d.evaluate kind

/-- A change of a consumption-active field hands CONSUMPTION (R148). -/
def Device.handConsuming (d : Device) (slot : Nat) (old new : Bool) : Device :=
  if old = new then d else d.handConsumption slot

/-- Stores a channel's record, with D recomputed, and hands its changes on (R148 to R151). -/
def Device.storeForecast (d : Device) (slot : Nat) (ch : Channel) (f : Forecast) : Device :=
  let old := d.forecast slot ch
  let new := d.withDays slot ch f
  let stored := (d.putForecast slot ch new).handConsuming slot old.consuming new.consuming
  if old.p = new.p && old.days = new.days then stored
  else
    ((stored.handLevelChange slot ch old.p new.p).handDaysChange slot ch old.days
      new.days).evaluateSupplyFlags slot

/-! ## Absence marks (R25) -/

/-- The record when its mark becomes `marked`: P is forced to 0, or returns to Pk (R25). -/
def Forecast.onMark (f : Forecast) (marked : Bool) : Forecast :=
  { f with p := if marked then some 0 else f.pk }

/-- Sets or clears a channel's absence mark (R25). -/
def Device.setMark (d : Device) (slot : Nat) (ch : Channel) (marked : Bool) : Device :=
  if (d.printer slot).marks.get ch = marked then d
  else
    (d.modPrinter slot fun p => { p with marks := p.marks.set marked ch }).storeForecast slot ch
      ((d.forecast slot ch).onMark marked)

/-- The channels of a printer's channel set. -/
def Device.channelsOf (d : Device) (slot : Nat) : List Channel :=
  Channel.all.filter (d.settings slot).channels.get

/-- A report's list sets and clears the marks of the channel set (R25). -/
def Device.takeMarks (d : Device) (slot : Nat) (codes : List Nat) : Device :=
  (d.channelsOf slot).foldl (fun d ch => d.setMark slot ch (d.marksAbsent codes ch)) d

/-! ## Levels (R145 to R147) -/

/-- The anchor takes a channel's relevant sides (R145). -/
def Forecast.addSides (f : Forecast) (n : Nat) : Forecast :=
  { f with anchor := satAdd Config.max32 f.anchor n }

/-- Each channel of the channel set adds its relevant delta to its anchor (R145). -/
def Device.addAnchors (d : Device) (slot : Nat) (mono colour : Nat) : Device :=
  (d.channelsOf slot).foldl
    (fun d ch => d.putForecast slot ch ((d.forecast slot ch).addSides (relevantSides ch mono colour))) d

/-- The reported level of a byte, or none for UNKNOWN (R145). -/
def reportedLevel (ch : Channel) (byte : Nat) : Option Nat :=
  if byte = 255 then none
  else if ch = .waste then some (100 - byte)
  else some byte

/-- A first reading (R145). -/
def Forecast.firstReading (f : Forecast) (level : Nat) : Forecast :=
  { f with p := some level, pk := some level, anchor := 0 }

/-- An install (R146). -/
def Forecast.install (f : Forecast) (level : Nat) : Forecast :=
  { f with p := some level, pk := some level, anchor := 0, consuming := false, lastSample := none }

/-- The sample rate of a drop (R147). -/
def sampleRate (anchor fall : Nat) : Nat := clamp 1 65535 (anchor / fall)

/-- Moves a smoothed value toward a sample by the difference over 2^k, rounded toward zero (R147, R153). -/
def smooth (k : Nat) (old sample : Nat) : Nat := ((old : Int) + ((sample : Int) - old).tdiv (2 ^ k)).toNat

/-- The floor of a channel's kind (R148). -/
def ForecastSettings.floor (s : ForecastSettings) : Channel → Nat
  | .k => s.floorK
  | .c | .m | .y => s.floorColour
  | .drum => s.floorDrum
  | .waste => s.floorWaste

/-- A drop from `known` to `level`, with its sample measured (R147, R148). -/
def Forecast.drop (s : ForecastSettings) (ch : Channel) (f : Forecast) (known level : Nat) : Forecast :=
  let sample := sampleRate f.anchor (known - level)
  { f with
    p := some level
    pk := some level
    anchor := 0
    rate := some (match f.rate with
      | none => sample
      | some r => smooth s.shift r sample)
    lastSample := some sample
    consuming := sample < s.floor ch }

/-- A drop in SERVICE measures no sample (R147). -/
def Forecast.dropInService (f : Forecast) (level : Nat) : Forecast :=
  { f with p := some level, pk := some level, anchor := 0 }

/-- A small rise shows in P alone (R147). -/
def Forecast.smallRise (f : Forecast) (level : Nat) : Forecast := { f with p := some level }

/-- Takes a level that is not UNKNOWN at a channel that is not marked absent (R145 to R147). -/
def Device.takeKnownLevel (d : Device) (slot : Nat) (ch : Channel) (level : Nat) : Device :=
  let f := d.forecast slot ch
  match f.pk with
  | none => d.storeForecast slot ch (f.firstReading level)
  | some known =>
    if known + d.work.forecast.swap ≤ level then
      (d.takeInstall slot ((d.settings slot).kinds.get ch)).storeForecast slot ch (f.install level)
    else if level < known then
      if (d.printer slot).inService then d.storeForecast slot ch (f.dropInService level)
      else d.storeForecast slot ch (Forecast.drop d.work.forecast ch f known level)
    else d.storeForecast slot ch (f.smallRise level)

/-- Takes a channel's level byte (R145). -/
def Device.takeLevel (d : Device) (slot : Nat) (ch : Channel) (byte : Nat) : Device :=
  match reportedLevel ch byte with
  | none => d
  | some level => if (d.printer slot).marks.get ch then d else d.takeKnownLevel slot ch level

/-- Takes the level bytes of the channel set (R7, R145). -/
def Device.takeLevels (d : Device) (slot : Nat) (levels : ByChannel Nat) : Device :=
  (d.channelsOf slot).foldl (fun d ch => d.takeLevel slot ch (levels.get ch)) d

/-! ## The day rollover (R152, R153) -/

/-- The next value the running clock will reach whose time of day is the hour, past the wrap too (R152). DESIGN CHOICE
(log entry 15): for hour 0 on the day in which the clock wraps it is 0 itself, where R152 also says 'the first such value
after 0'. -/
def nextInstant (wall : Time) (hour : Nat) : Time :=
  let today := wall.toNat - wall.toNat % Config.daySeconds + hour * 3600
  let next := if wall.toNat < today then today else today + Config.daySeconds
  if next < 2 ^ 32 then BitVec.ofNat 32 next else BitVec.ofNat 32 (hour * 3600)

/-- Sets the next-rollover instant afresh: absent while the clock is invalid (R152). -/
def Device.freshRollover (d : Device) : Device :=
  { d with nextRollover :=
      if d.wallValid then some (nextInstant d.wall d.work.forecast.rolloverHour) else none }

/-- The clock has reached the kept instant (R152, R156). DESIGN CHOICE (log entry 56): judged as R186 judges an
uptime deadline, so that a wall clock that wraps is judged too. -/
def Device.rolloverDue (d : Device) : Bool :=
  d.wallValid && d.nextRollover.any fun t => passed d.wall t

/-- A throughput smoothed with the day's count (R153). -/
def smoothThroughput (kd : Nat) (old : Option Nat) (count : Nat) : Nat :=
  match old with
  | none => clamp 0 65535 count
  | some t => clamp 0 65535 (smooth kd t count)

/-- Steps 1 to 3 of R153. -/
def Printer.rollover (p : Printer) (kd : Nat) : Printer :=
  { p with
    throughputAll := some (smoothThroughput kd p.throughputAll p.dailyAll)
    throughputColour := some (smoothThroughput kd p.throughputColour p.dailyColour)
    dailyAll := 0
    dailyColour := 0 }

/-- Recomputes D of every channel in the channel set of a slot, without handing it on. -/
def Device.redays (d : Device) (slot : Nat) : Device :=
  (d.channelsOf slot).foldl
    (fun d ch => d.putForecast slot ch (d.withDays slot ch (d.forecast slot ch))) d

/-- The rollover at one slot; the stock table evaluates no kind while it runs (R153). -/
def Device.rolloverSlot (d : Device) (slot : Nat) : Device :=
  ((d.modPrinter slot fun p => p.rollover d.work.forecast.dayShift).redays slot).evaluateSupplyFlags slot

/-- Clears every kind's declined hold (R165). -/
def Device.clearHolds (d : Device) : Device :=
  { d with stock := d.stock.mapAll {} fun k => { k with hold := false } }

/-- After the rollover, evaluates once each kind whose demand changed or whose hold cleared (R153). -/
def Device.evaluateAfterRollover (before now : Device) : Device :=
  (List.range Config.stockKinds).foldl
    (fun d k =>
      if Device.demandMoved before now k || (before.kind k).hold then d.evaluate k else d) now

/-- A day rollover (R153), the slots in rising order (log entry 12), without setting the next instant. -/
def Device.takeRollover (d : Device) : Device :=
  Device.evaluateAfterRollover d
    (((d.configuredSlots.filter fun p => d.live p).foldl Device.rolloverSlot d).clearHolds)

/-- DAY_ROLLOVER (R152, R153). -/
def Device.dayRollover (d : Device) : Device :=
  if d.rolloverDue then d.takeRollover.freshRollover else d

/-! ## SET FORECAST (R154) -/

def forecastInRange (s : ForecastSettings) : Bool :=
  s.shift ≤ 6 && s.dayShift ≤ 4 && 20 ≤ s.swap && s.swap ≤ 80 && s.lowWarning ≤ 30
    && s.floorK ≤ 65535 && s.floorColour ≤ 65535 && s.floorDrum ≤ 65535 && s.floorWaste ≤ 65535
    && s.rolloverHour ≤ 23

def Device.putForecastSettings (d : Device) (s : ForecastSettings) : Device :=
  { d with work := { d.work with forecast := s } }

/-- The last sample judged against a floor; an absent sample is set clear (R148). -/
def Forecast.rejudge (f : Forecast) (floor : Nat) : Forecast :=
  { f with consuming := f.lastSample.any (· < floor) }

/-- Judges the channels of a slot whose floor changed again (R148). -/
def Printer.rejudge (p : Printer) (old new : ForecastSettings) : Printer :=
  { p with forecasts := ByChannel.ofFn fun ch =>
      if old.floor ch = new.floor ch then p.forecasts.get ch
      else (p.forecasts.get ch).rejudge (new.floor ch) }

/-- Applies changed consumption floors at one slot: CONSUMPTION is handed again when a channel changed
(R154). -/
def Device.applyFloors (old new : ForecastSettings) (d : Device) (slot : Nat) : Device :=
  let judged := d.modPrinter slot fun p => p.rejudge old new
  if (judged.printer slot).forecasts = (d.printer slot).forecasts then d
  else Device.finishEvent d slot (judged.handConsumption slot)

/-- A taken SET FORECAST: each changed field takes effect, in the order of R154's list, slots in rising order
(R154, log entry 12). -/
def Device.changeForecast (d : Device) (s : ForecastSettings) : Device :=
  let old := d.work.forecast
  let set := d.putForecastSettings s
  let lows := if old.lowWarning = s.lowWarning then set
    else d.configuredSlots.foldl Device.evaluateSupplyFlags set
  let floors := d.configuredSlots.foldl (Device.applyFloors old s) lows
  if old.rolloverHour = s.rolloverHour then floors else floors.freshRollover

/-- SET FORECAST (R154). -/
def setForecast : List Byte → Device → Device × List Byte :=
  withFields [1, 1, 1, 1, 2, 2, 2, 2, 1] fun vs d =>
    match vs with
    | [k, kd, swap, low, fk, fc, fd, fw, hour] =>
      if forecastInRange ⟨k, kd, swap, low, fk, fc, fd, fw, hour⟩ then
        unlessSaving d (answer (d.changeForecast ⟨k, kd, swap, low, fk, fc, fd, fw, hour⟩) [])
      else refuse .badField d
    | _ => refuse .badLength d

/-! ## READ SUPPLIES (R155) -/

def channelBytes (d : Device) (slot : Nat) (ch : Channel) : List Byte :=
  let f := d.forecast slot ch
  [boolByte ((d.settings slot).channels.get ch)] ++ optBytes 1 ((d.settings slot).kinds.get ch)
    ++ [boolByte ((d.printer slot).marks.get ch)] ++ optBytes 1 f.p ++ optBytes 1 f.pk
    ++ toBytes 4 f.anchor ++ optBytes 2 f.rate ++ optBytes 2 f.lastSample ++ optBytes 2 f.days
    ++ [boolByte f.consuming]

def readSuppliesOf (slot : Nat) (d : Device) : Device × List Byte :=
  if Config.printers ≤ slot then refuse .badField d
  else if !d.configured slot then refuse .notFound d
  else
    let p := d.printer slot
    answer d (Channel.all.flatMap (channelBytes d slot) ++ optBytes 2 p.throughputAll
      ++ optBytes 2 p.throughputColour ++ toBytes 4 p.dailyAll ++ toBytes 4 p.dailyColour
      ++ [boolByte (d.isLow slot), boolByte (d.isOut slot)])

/-- The channels of a low printer with D at most the warning (R155). DESIGN CHOICE (log entry 57): in the order K, C,
M, Y, DRUM, WASTE. -/
def lowChannelBytes (d : Device) (slot : Nat) : List (List Byte) :=
  ((d.channelsOf slot).filter fun ch =>
      (d.forecast slot ch).days.any (· ≤ d.work.forecast.lowWarning)).map fun ch =>
    toBytes 1 ch.number ++ optBytes 2 (d.forecast slot ch).days ++ optBytes 1 (d.forecast slot ch).p

def readLow (d : Device) : Device × List Byte :=
  answer d (listBytes ((d.configuredSlots.filter fun p => d.isLow p).map fun p =>
    toBytes 1 p ++ listBytes (lowChannelBytes d p)))

def forecastSettingsBytes (s : ForecastSettings) : List Byte :=
  toBytes 1 s.shift ++ toBytes 1 s.dayShift ++ toBytes 1 s.swap ++ toBytes 1 s.lowWarning
    ++ toBytes 2 s.floorK ++ toBytes 2 s.floorColour ++ toBytes 2 s.floorDrum
    ++ toBytes 2 s.floorWaste ++ toBytes 1 s.rolloverHour

/-- READ SUPPLIES (R155): selector PRINTER, LOW or SETTINGS. -/
def readSupplies (body : List Byte) (d : Device) : Device × List Byte :=
  match body with
  | [] => refuse .badLength d
  | sel :: rest =>
    match sel.toNat with
    | 0 => withFields [1] (fun vs d => readSuppliesOf (vs.headD 0) d) rest d
    | 1 => withFields [] (fun _ d => readLow d) rest d
    | 2 =>
      withFields [] (fun _ d =>
        answer d (forecastSettingsBytes d.work.forecast
          ++ optBytes 4 (d.nextRollover.map (·.toNat)))) rest d
    | _ => refuse .badField d

end Sys2Proof.Machine
end

