-- ==== Sys2Proof/Machine/Jobs.lean ====
section
/-! DEFINITION. Held jobs and release (spec 06): submission, expiry, cancellation, the listing, the release
checks, grants, completion, and the requests. -/

namespace Sys2Proof.Machine

/-! ## Submission (R99 to R101) -/

/-- The fields of a SUBMIT JOB body (R175). -/
structure Submission where
  jobId : Nat
  owner : Nat
  targetKind : Nat
  targetNumber : Nat
  mono : Nat
  colour : Nat
  sheets : Nat
  size : Nat
  title : Text
  deriving DecidableEq, Repr

/-- The fields of a SUBMIT JOB body; none for a length that does not fit the title length (R175). -/
def submissionOf (body : List Byte) : Option Submission :=
  match takeFields [4, 2, 1, 1, 2, 2, 2, 1, 1] body with
  | some ([jobId, owner, tk, tn, m, c, s, size, n], title) =>
    if title.length = n then some ⟨jobId, owner, tk, tn, m, c, s, size, title⟩ else none
  | _ => none

/-- The target a submission names, where check 3 of R99 accepts it. -/
def Device.submissionTarget (d : Device) (b : Submission) : Option Target :=
  if b.targetKind = 0 then
    if b.targetNumber < Config.printers && d.live b.targetNumber then some (.printer b.targetNumber)
    else none
  else if b.targetNumber ≤ 31 then some (.group b.targetNumber)
  else none

/-- Checks 1 and 2 of R99: kinds, size, title, counts. -/
def Submission.wellFormed (b : Submission) : Bool :=
  b.jobId ≠ 0 && b.targetKind ≤ 1 && b.size ≤ 1 && b.title.length ≤ 32 && b.title.all isChar
    && b.mono ≤ 9999 && b.colour ≤ 9999 && 1 ≤ b.sheets && b.sheets ≤ 9999
    && 1 ≤ b.mono + b.colour && b.sheets ≤ b.mono + b.colour && b.mono + b.colour ≤ 2 * b.sheets

/-- Colour is permitted for the account and for its tenant (R99, R107). -/
def Device.colourPermitted (d : Device) (account : Nat) : Bool :=
  (d.accountSettings account).colour && (d.tenantSettings (d.accountSettings account).tenant).colour

/-- The ticket with a job id, and its slot. -/
def Device.ticketById (d : Device) (jobId : Nat) : Option (Nat × Ticket) :=
  d.ticketList.find? fun e => e.2.jobId = jobId

/-- The lowest-numbered free ticket slot (R96). -/
def Device.freeTicket (d : Device) : Option Nat :=
  (List.range Config.tickets).find? fun n => (d.ticket n).isNone

/-- The ticket that an accepted submission makes (R100). -/
def Device.newTicket (d : Device) (b : Submission) (target : Target) : Ticket where
  jobId := b.jobId
  owner := b.owner
  target := target
  mono := b.mono
  colour := b.colour
  sheets := b.sheets
  size := if b.size = 0 then .standard else .large
  title := if b.title = [] then none else some b.title
  sequence := d.nextSequence
  expiry := after d.uptime ((d.tenantSettings (d.accountSettings b.owner).tenant).holdHours * 3600)
  phase := .held
  reprint := false
  lastRefusal := none

/-- Raises STORE_HIGH when the store has risen from 895 to 896 tickets (R101). -/
def Device.checkStoreHigh (before now : Device) : Device :=
  if before.ticketCount < Config.storeHighRaise && Config.storeHighRaise ≤ now.ticketCount then
    now.raise .storeHigh
  else now

/-- Places an accepted submission in ticket slot `n` (R97, R100). -/
def Device.submit (d : Device) (n : Nat) (t : Ticket) : Device :=
  Device.checkStoreHigh d
    ({ (d.putTicket n (some t)).modAccount t.owner fun a => { a with held := a.held + 1 } with
        nextSequence := d.nextSequence + 1 })

/-- The reason byte of a SUBMIT JOB reply: COLOUR_NOT_PERMITTED or NONE, in the order of R174. -/
def reasonByte (colourNotPermitted : Bool) : Byte := if colourNotPermitted then 0 else 1

def submitRefusal (st : Status) (d : Device) : Device × List Byte := (d, [st.byte, reasonByte false])

/-- The checks of R99 from check 4 on, and the acceptance (R100). -/
def submitChecked (b : Submission) (target : Target) (d : Device) : Device × List Byte :=
  if Config.accounts ≤ b.owner then submitRefusal .notFound d
  else if !d.usable b.owner then submitRefusal .state d
  else if 0 < b.colour && !d.colourPermitted b.owner then (d, [Status.state.byte, reasonByte true])
  else if (d.ticketById b.jobId).isSome then submitRefusal .duplicate d
  else
    match d.freeTicket with
    | none => submitRefusal .full d
    | some n =>
      if (d.accountSettings b.owner).heldLimit ≤ (d.accountTotals b.owner).held then
        submitRefusal .locked d
      else
        (d.submit n (d.newTicket b target),
          [Status.ok.byte, reasonByte false] ++ toBytes 2 n ++ toBytes 4 d.nextSequence.toNat
            ++ toBytes 4 (secondsLeft d.uptime (d.newTicket b target).expiry))

/-- SUBMIT JOB (R99, R100). -/
def submitJob (body : List Byte) (d : Device) : Device × List Byte :=
  match submissionOf body with
  | none => submitRefusal .badLength d
  | some b =>
    if !b.wellFormed then submitRefusal .badField d
    else
      match d.submissionTarget b with
      | none => submitRefusal .badField d
      | some target => submitChecked b target d

/-! ## Expiry and cancellation (R102, R104) -/

/-- TICKET_EXPIRY (R102): a QUEUED or PRINTING ticket is passed by. -/
def Device.ticketExpiry (d : Device) (n : Nat) : Device :=
  match d.ticket n with
  | some t => if t.phase = .held && passed d.uptime t.expiry then d.expire n t else d
  | none => d

/-- A host cancel of a HELD or QUEUED ticket (R104). -/
def Device.cancelTicket (d : Device) (n : Nat) (t : Ticket) : Device :=
  match t.phase with
  | .queued a => ((d.returnReservation t).depart n t).afterLeaving a.printer
  | .held | .printing _ _ _ => d.depart n t

/-- The state of a ticket in a reply. -/
def ticketStateBytes (t : Ticket) : List Byte := toBytes 1 t.phase.number

/-- CANCEL JOB (R104): the reply carries the state the ticket was in. -/
def cancelJob : List Byte → Device → Device × List Byte :=
  withFields [4] fun vs d =>
    if vs.headD 0 = 0 then refuse .badField d
    else
      match d.ticketById (vs.headD 0) with
      | none => refuse .notFound d
      | some (n, t) =>
        if t.phase.isPrinting then (d, Status.state.byte :: ticketStateBytes t)
        else answer (d.cancelTicket n t) (ticketStateBytes t)

/-! ## The listing (R105, R106) -/

/-- A ticket is eligible for a listing of an account at a terminal bound to printer Q (R105). -/
def Device.eligible (d : Device) (account q : Nat) (t : Ticket) : Bool :=
  t.owner = account && t.phase = .held &&
    match t.target with
    | .printer p => p = q || (d.configured p && (d.settings p).group = (d.settings q).group)
    | .group g => g = (d.settings q).group

/-- The eligible tickets in submit order (R97, R105). -/
def Device.eligibleTickets (d : Device) (account q : Nat) : List (Nat × Ticket) :=
  sortBy (fun e => e.2.sequence.toNat) (d.ticketList.filter fun e => d.eligible account q e.2)

/-- The number of pages of a listing: at least 1 (R105). -/
def pageCount (n : Nat) : Nat := max 1 (ceilDiv n 4)

/-- A requested page clamped to the pages there are (R105). -/
def pageNumber (count requested : Nat) : Nat := clamp 1 count requested

/-- The target is another printer that is releasable for the ticket (R106, R107 check 2). -/
def Device.atOther (d : Device) (q : Nat) (t : Ticket) : Bool :=
  match t.target with
  | .printer p => p ≠ q && d.releasable p (0 < t.colour)
  | .group _ => false

/-- The availability mark of an entry (R106). -/
def Device.availability (d : Device) (q : Nat) (t : Ticket) : Availability :=
  if d.atOther q t then .atOther
  else if 0 < t.colour && (d.printer q).derived = .degradedMono then .colourUnavailable
  else .available

def Ticket.name (t : Ticket) : JobName :=
  match t.title with
  | some s => .title s
  | none => .jobId t.jobId

/-- One entry of a page (R106). -/
def Device.pageEntry (d : Device) (q : Nat) (t : Ticket) : PageEntry where
  name := t.name
  sides := t.mono + t.colour
  sheets := t.sheets
  colourMark := 0 < t.colour
  estimate := d.estimate t q
  reprint := t.reprint
  availability := d.availability q t

/-- The smaller of two budgets, floored at 0; none when both are UNLIMITED (R106). -/
def smallerBudget : Option Int → Option Int → Option Nat
  | none, none => none
  | some a, none => some a.toNat
  | none, some b => some b.toNat
  | some a, some b => some (min a b).toNat

def Device.readiness (d : Device) (q : Nat) : Readiness :=
  match (d.printer q).derived with
  | .online => .taking
  | .degradedMono => .monoOnly
  | .unconfigured | .retired | .service | .faulted | .holdoff => .notTaking

/-- The tickets on one page of a listing. -/
def pageTickets (all : List (Nat × Ticket)) (number : Nat) : List (Nat × Ticket) :=
  (all.drop ((number - 1) * 4)).take 4

/-- The page of a listing at the requested number, clamped (R105, R106). -/
def Device.listingPage (d : Device) (account q requested : Nat) : Page :=
  let all := d.eligibleTickets account q
  let number := pageNumber (pageCount all.length) requested
  { entries := (pageTickets all number).map fun e => d.pageEntry q e.2
    number := number
    count := pageCount all.length
    eligible := all.length
    budget := smallerBudget (d.accountRemaining account)
      (d.tenantRemaining (d.accountSettings account).tenant)
    readiness := d.readiness q }

/-- The references of that page: ticket slot and job id by position (R105). -/
def Device.listingRefs (d : Device) (account q requested : Nat) : List PageRef :=
  let all := d.eligibleTickets account q
  (pageTickets all (pageNumber (pageCount all.length) requested)).map fun e =>
    { ticket := e.1, jobId := e.2.jobId }

/-! ## The release checks (R107, R108) -/

/-- The ticket a reference names, while it still passes check 1 of R107. -/
def Device.listedTicket (d : Device) (account q : Nat) (r : PageRef) : Option Ticket :=
  (d.ticket r.ticket).filter fun t => t.jobId = r.jobId && d.eligible account q t

/-- Checks 2 to 8 of R107, in order; `released` when all pass. -/
def Device.releaseCheck (d : Device) (account q : Nat) (t : Ticket) : ReleaseOutcome :=
  if d.atOther q t then .notHere
  else if !d.releasable q false then .printerUnavailable
  else if 0 < t.colour && (d.printer q).derived = .degradedMono then .colourUnavailable
  else if 0 < t.colour && !d.colourPermitted account then .colourNotPermitted
  else if Config.queueRoom ≤ (d.queue q).length then .queueFull
  else
    match d.verdict account (d.estimate t q) with
    | .quotaAccount => .quotaAccount
    | .quotaTenant => .quotaTenant
    | .admitted => .released

/-- What an admission gives a ticket at a printer (R87, R89). -/
def Device.admission (d : Device) (q : Nat) (t : Ticket) : Admitted where
  printer := q
  reservation := d.estimate t q
  snapClass := (d.settings q).rateClass
  snapRates := d.rates (d.settings q).rateClass

/-- Releases an admitted ticket into a printer's queue, which is then considered (R108). -/
def Device.releaseInto (d : Device) (q n : Nat) (t : Ticket) : Device :=
  let released := { t with phase := .queued (d.admission q t), reprint := false, lastRefusal := none }
  ((((d.reserve t.owner (d.estimate t q)).putTicket n (some released)).putQueue q
      (d.queue q ++ [n])).consider q)

/-- Takes one reference through the release checks and the release (R107, R108). -/
def Device.releaseRef (d : Device) (account q : Nat) (r : PageRef) : Device × ReleaseOutcome :=
  match d.listedTicket account q r with
  | none => (d, .ticketGone)
  | some t =>
    match d.releaseCheck account q t with
    | .released => (d.releaseInto q r.ticket t, .released)
    | refusal => (d.putTicket r.ticket (some { t with lastRefusal := some refusal }), refusal)

/-- What RELEASE ALL has done so far: tickets released and the first refusal (R110). -/
structure Walk where
  device : Device
  released : Nat
  first : Option ReleaseOutcome

/-- One step of the walk of R110. -/
def Walk.step (account q : Nat) (w : Walk) (r : PageRef) : Walk :=
  match w.device.releaseRef account q r with
  | (d, .released) => { device := d, released := w.released + 1, first := w.first }
  | (d, refusal) => { device := d, released := w.released, first := w.first.or (some refusal) }

/-- RELEASE ALL: every entry of the listing built afresh, in listing order (R110). -/
def Device.releaseWalk (d : Device) (account q : Nat) : Walk :=
  ((d.eligibleTickets account q).map fun e => PageRef.mk e.1 e.2.jobId).foldl (Walk.step account q)
    { device := d, released := 0, first := none }

/-- A terminal cancel of a reference: none when check 1 applies (R109). -/
def Device.cancelRef (d : Device) (account q : Nat) (r : PageRef) : Option Device :=
  (d.listedTicket account q r).map fun t => d.departListed r.ticket t .terminalCancel none

/-! ## Grants (R116) -/

/-- A taken grant: the ticket's flag is set, and its printer's stall timing starts (R10, R116). -/
def Device.takeGrant (d : Device) (g : Grant) : Device :=
  let flagged :=
    match d.ticket g.ticket with
    | some t =>
      match t.phase with
      | .printing a _ deadline => d.putTicket g.ticket (some { t with phase := .printing a true deadline })
      | .held | .queued _ => d
    | none => d
  flagged.modPrinter g.printer fun p => { p with lastAdvance := some d.uptime }

/-- Takes the oldest `n` entries of the grant queue and hands on the room (R116). -/
def Device.takeGrants (d : Device) (n : Nat) : Device :=
  ((d.grants.take n).foldl Device.takeGrant { d with grants := d.grants.drop n }).handRoom

def grantBytes (g : Grant) : List Byte := toBytes 4 g.jobId ++ toBytes 2 g.ticket ++ toBytes 1 g.printer

/-- TAKE GRANTS (R116). -/
def takeGrantsRequest : List Byte → Device → Device × List Byte :=
  withFields [1] fun vs d =>
    let n := vs.headD 0
    if n = 0 ∨ 8 < n then refuse .badField d
    else
      answer (d.takeGrants n) (listBytes ((d.grants.take n).map grantBytes)
        ++ toBytes 1 (d.takeGrants n).grants.length)

/-! ## Completion (R117, R118) -/

/-- The departure reason of a JOB DONE: ABORTED is listed, COMPLETE is not (R103). -/
def jobDoneReason (outcome : Nat) : Option RemovalReason := if outcome = 1 then some .aborted else none

/-- Settles a PRINTING ticket with reported counts and considers its queue (R117). -/
def Device.completeJob (d : Device) (n : Nat) (t : Ticket) (a : Admitted) (counts : Totals)
    (outcome : Nat) : Device :=
  (d.settleTicket n t a counts (jobDoneReason outcome)).afterLeaving a.printer

/-- JOB DONE (R117). DESIGN CHOICE (log entry 48): an outcome out of range is answered before the ticket is looked
at. -/
def jobDone : List Byte → Device → Device × List Byte :=
  withFields [4, 2, 2, 2, 1] fun vs d =>
    match vs with
    | [jobId, m, c, s, outcome] =>
      if jobId = 0 ∨ 1 < outcome then refuse .badField d
      else
        match d.ticketById jobId with
        | none => refuse .notFound d
        | some (n, t) =>
          match t.phase with
          | .printing a _ _ =>
            let counts := clampTotals ⟨m, c, s⟩
            answer (d.completeJob n t a ⟨m, c, s⟩ outcome)
              (toBytes 2 (settlementOf t a ⟨m, c, s⟩) ++ toBytes 2 counts.mono
                ++ toBytes 2 counts.colour ++ toBytes 2 counts.sheets)
          | .held | .queued _ => refuse .tooLate d
    | _ => refuse .badLength d

/-- COMPLETION_DEADLINE (R118). -/
def Device.completionDeadline (d : Device) (n : Nat) : Device :=
  match d.ticket n with
  | none => d
  | some t =>
    match t.phase with
    | .printing a _ deadline =>
      if passed d.uptime deadline then
        ((d.endFromAccumulators n t a .timeoutSettled).raise .jobTimeout).afterLeaving a.printer
      else d
    | .held | .queued _ => d

/-! ## SET JOB LIMITS (R119) -/

/-- The limits written; a changed stall time moves the pending expiries, and one already passed makes STALL
active at once (R10, R119). DESIGN CHOICE (log entry 55): the printers in rising slot order. -/
def Device.changeJobLimits (d : Device) (timeout stall : Nat) : Device :=
  let set := { d with work := { d.work with completionMinutes := timeout, stallTime := stall } }
  if d.work.stallTime = stall then set else (List.range Config.printers).foldl Device.checkStall set

def setJobLimits : List Byte → Device → Device × List Byte :=
  withFields [1, 2] fun vs d =>
    match vs with
    | [timeout, stall] =>
      if 1 ≤ timeout ∧ timeout ≤ 120 ∧ 60 ≤ stall ∧ stall ≤ 1800 then
        unlessSaving d (answer (d.changeJobLimits timeout stall) [])
      else refuse .badField d
    | _ => refuse .badLength d

/-! ## READ TICKETS (R120) -/

def targetBytes : Target → List Byte
  | .printer p => [0, BitVec.ofNat 8 p]
  | .group g => [1, BitVec.ofNat 8 g]

/-- A class snapshot field: presence, class number, six rate fields (R96, R176). -/
def snapshotBytes : Option Admitted → List Byte
  | some a => 1 :: (toBytes 1 a.snapClass ++ ratesBytes a.snapRates)
  | none => 0 :: toBytes 11 0

/-- The grant-taken flag, present in PRINTING. -/
def TicketPhase.taken : TicketPhase → Option Bool
  | .printing _ taken _ => some taken
  | .held | .queued _ => none

/-- The completion deadline, present in PRINTING. -/
def TicketPhase.deadline : TicketPhase → Option Time
  | .printing _ _ deadline => some deadline
  | .held | .queued _ => none

/-- An optional flag field (R176). -/
def optFlagBytes : Option Bool → List Byte
  | some b => [1, boolByte b]
  | none => [0, 0]

/-- A ticket record in the order of R96; deadlines as seconds from now (R120). -/
def ticketBytes (d : Device) (n : Nat) (t : Ticket) : List Byte :=
  toBytes 4 t.jobId ++ toBytes 2 n ++ toBytes 2 t.owner ++ targetBytes t.target ++ toBytes 2 t.mono
    ++ toBytes 2 t.colour ++ toBytes 2 t.sheets ++ toBytes 1 t.size.number ++ optTextBytes t.title
    ++ toBytes 4 t.sequence.toNat ++ toBytes 4 (secondsLeft d.uptime t.expiry)
    ++ toBytes 1 t.phase.number ++ optBytes 1 (t.phase.admitted.map (·.printer))
    ++ optBytes 2 (t.phase.admitted.map (·.reservation)) ++ snapshotBytes t.phase.admitted
    ++ optFlagBytes t.phase.taken ++ optBytes 2 (t.phase.deadline.map (secondsLeft d.uptime))
    ++ [boolByte t.reprint] ++ optBytes 1 (t.lastRefusal.map ReleaseOutcome.number)

def readTicketJob (jobId : Nat) (d : Device) : Device × List Byte :=
  if jobId = 0 then refuse .badField d
  else
    match d.ticketById jobId with
    | some (n, t) => answer d (ticketBytes d n t)
    | none => refuse .notFound d

/-- An account's tickets in submit order. -/
def Device.ticketsOf (d : Device) (account : Nat) : List (Nat × Ticket) :=
  sortBy (fun e => e.2.sequence.toNat) (d.ticketList.filter fun e => e.2.owner = account)

def accountTicketBytes (e : Nat × Ticket) : List Byte :=
  toBytes 4 e.2.jobId ++ toBytes 2 e.1 ++ toBytes 1 e.2.phase.number ++ targetBytes e.2.target
    ++ optBytes 1 (e.2.phase.admitted.map (·.printer))
    ++ optBytes 1 (e.2.lastRefusal.map ReleaseOutcome.number)

def readTicketAccount (account start : Nat) (d : Device) : Device × List Byte :=
  if Config.accounts ≤ account ∨ 63 < start then refuse .badField d
  else
    answer d (toBytes 1 (d.accountTotals account).held
      ++ listBytes ((((d.ticketsOf account).drop start).take 16).map accountTicketBytes))

def queueEntryBytes (d : Device) (n : Nat) : List Byte :=
  match d.ticket n with
  | some t =>
    toBytes 4 t.jobId ++ toBytes 2 n ++ toBytes 1 t.phase.number ++ optFlagBytes t.phase.taken
  | none => []

/-- READ TICKETS with PRINTER (R120). DESIGN CHOICE (log entry 42): the position in the waiting list counts
from 0. -/
def readTicketPrinter (slot : Nat) (d : Device) : Device × List Byte :=
  if Config.printers ≤ slot then refuse .badField d
  else
    answer d (listBytes ((d.queue slot).map (queueEntryBytes d))
      ++ optBytes 1 (d.waiting.findIdx? fun p => p = slot))

/-- The number of tickets in a state. -/
def Device.countPhase (d : Device) (number : Nat) : Nat :=
  d.ticketList.countP fun e => e.2.phase.number = number

def readTicketStore (d : Device) : Device × List Byte :=
  answer d (toBytes 2 d.ticketCount ++ toBytes 2 (d.countPhase 0) ++ toBytes 2 (d.countPhase 1)
    ++ toBytes 1 (d.countPhase 2) ++ toBytes 4 d.nextSequence.toNat
    ++ toBytes 1 d.work.completionMinutes ++ toBytes 2 d.work.stallTime
    ++ listBytes (d.waiting.map (toBytes 1)) ++ toBytes 1 d.removals.length
    ++ toBytes 1 d.removalsDropped)

def removalBytes (r : Removal) : List Byte :=
  toBytes 4 r.jobId ++ toBytes 2 r.owner ++ toBytes 2 r.ticket ++ toBytes 1 r.reason.number
    ++ optBytes 2 r.charge ++ toBytes 4 r.at_.toNat

/-- READ TICKETS with REMOVED: the list and dropped count, which are then emptied (R103). -/
def readRemoved (d : Device) : Device × List Byte :=
  answer { d with removals := [], removalsDropped := 0 }
    (listBytes (d.removals.map removalBytes) ++ toBytes 1 d.removalsDropped)

/-- READ TICKETS (R120): selector JOB, ACCOUNT, PRINTER, GRANTS, STORE or REMOVED. -/
def readTickets (body : List Byte) (d : Device) : Device × List Byte :=
  match body with
  | [] => refuse .badLength d
  | sel :: rest =>
    match sel.toNat with
    | 0 => withFields [4] (fun vs d => readTicketJob (vs.headD 0) d) rest d
    | 1 => withFields [2, 1] (fun vs d => readTicketAccount (vs.headD 0) (vs.getD 1 0) d) rest d
    | 2 => withFields [1] (fun vs d => readTicketPrinter (vs.headD 0) d) rest d
    | 3 => withFields [] (fun _ d => answer d (listBytes (d.grants.map grantBytes))) rest d
    | 4 => withFields [] (fun _ d => readTicketStore d) rest d
    | 5 => withFields [] (fun _ d => readRemoved d) rest d
    | _ => refuse .badField d

end Sys2Proof.Machine
end

