-- ==== Sys2Proof/Machine/Printers.lean ====
section
/-! DEFINITION. The requests of the fleet table (spec 01): SET PRINTER, RETIRE PRINTER, PRINTER REPORT and
READ PRINTER. -/

namespace Sys2Proof.Machine

/-! ## PRINTER REPORT (R4 to R7) -/

/-- The fields of a PRINTER REPORT body (R175). -/
structure Report where
  slot : Nat
  totals : Totals
  levels : ByChannel Nat
  codes : List Nat
  deriving DecidableEq, Repr

/-- The two-byte codes that a run of bytes spells, low byte first (R175). -/
def codesOf : List Byte → List Nat
  | lo :: hi :: rest => (lo.toNat + 256 * hi.toNat) :: codesOf rest
  | _ => []

/-- The fields of a PRINTER REPORT body; none for a length that does not fit the condition count, or a
count above 16 (R175). -/
def reportOf (body : List Byte) : Option Report :=
  match takeFields [1, 4, 4, 4, 1, 1, 1, 1, 1, 1, 1] body with
  | some ([slot, m, c, s, k, cy, mg, y, dr, wa, n], codes) =>
    if n ≤ 16 ∧ codes.length = 2 * n then
      some ⟨slot, ⟨m, c, s⟩, ⟨k, cy, mg, y, dr, wa⟩, codesOf codes⟩
    else none
  | _ => none

/-- A level byte in range: 0 to 100, or 255 for UNKNOWN (R4). -/
def levelInRange (byte : Nat) : Bool := byte ≤ 100 || byte = 255

/-- Every level byte of the channel set is in range (R4). -/
def Device.levelsInRange (d : Device) (r : Report) : Bool :=
  (d.channelsOf r.slot).all fun ch => levelInRange (r.levels.get ch)

/-- Some reported total is lower than its last value (R5). -/
def Totals.fellFrom (t last : Totals) : Bool :=
  t.mono < last.mono || t.colour < last.colour || t.sheets < last.sheets

/-- The report is a regression (R5). -/
def Printer.regresses (p : Printer) (t : Totals) : Bool := p.lastTotals.any t.fellFrom

/-- The three deltas of a report (R5). -/
def Printer.deltas (p : Printer) (t : Totals) : Totals :=
  match p.lastTotals with
  | none => {}
  | some last =>
    if t.fellFrom last then {} else ⟨t.mono - last.mono, t.colour - last.colour, t.sheets - last.sheets⟩

/-- Adds totals, each saturating (R6). -/
def Totals.add (a b : Totals) : Totals :=
  ⟨satAdd Config.max32 a.mono b.mono, satAdd Config.max32 a.colour b.colour,
    satAdd Config.max32 a.sheets b.sheets⟩

/-- The side delta of a report (R6). -/
def Totals.sides (t : Totals) : Nat := t.mono + t.colour

/-- The accumulators of the fleet table take the deltas; in SERVICE only sides since service does (R6). -/
def Printer.takeDeltas (p : Printer) (hasPrinting : Bool) (delta : Totals) : Printer :=
  let counted := { p with sinceService := satAdd Config.max32 p.sinceService delta.sides }
  if p.inService then counted
  else
    { counted with
      printing := if hasPrinting then p.printing.add delta else p.printing
      dailyAll := satAdd Config.max32 p.dailyAll delta.sides
      dailyColour := satAdd Config.max32 p.dailyColour delta.colour }

/-- The last totals take the reported values, the missed count becomes 0 and the silence deadline restarts
(R5, R7). -/
def Printer.restart (p : Printer) (t : Totals) (deadline : Time) : Printer :=
  { p with lastTotals := some t, missed := 0, silenceDeadline := some deadline }

/-- The stall timing sees an advance (R10): nothing happens without a side delta or without a running
timing. -/
def Device.takeAdvance (d : Device) (slot sides : Nat) : Device :=
  if 0 < sides && (d.printer slot).lastAdvance.isSome then
    (d.modPrinter slot fun p => { p with lastAdvance := some d.uptime }).hand slot .stall false
  else d

/-- The fleet table's own part of a taken report (R5 to R7). -/
def Device.takeTotals (d : Device) (r : Report) : Device :=
  let delta := (d.printer r.slot).deltas r.totals
  let counted := d.modPrinter r.slot fun p =>
    (p.takeDeltas (d.printingTicket r.slot).isSome delta).restart r.totals
      (after d.uptime (d.settings r.slot).reportInterval)
  let anchored :=
    if (d.printer r.slot).inService then counted else counted.addAnchors r.slot delta.mono delta.colour
  (((anchored.hand r.slot .counterRegress ((d.printer r.slot).regresses r.totals)).hand r.slot .silence
      false).takeAdvance r.slot delta.sides).handServiceDue r.slot

/-- A taken report (R4 to R7): the fleet table's part, the absence marks and classes of the list, the
levels; then the latchings and the printer state, once. DESIGN CHOICE (log entry 54): this order of the hand-offs;
R7 and R22 give none, and R25 only that the marks precede the levels. -/
def Device.takeReport (d : Device) (r : Report) : Device :=
  Device.finishEvent d r.slot
    ((((d.takeTotals r).takeMarks r.slot r.codes).handMapped r.slot r.codes).takeLevels r.slot r.levels)

/-- PRINTER REPORT (R4). -/
def printerReport (body : List Byte) (d : Device) : Device × List Byte :=
  match reportOf body with
  | none => refuse .badLength d
  | some r =>
    if Config.printers ≤ r.slot then refuse .badField d
    else if !d.levelsInRange r then refuse .badField d
    else if !d.configured r.slot then refuse .notFound d
    else if (d.printer r.slot).retired then refuse .state d
    else answer (d.takeReport r) []

/-! ## SET PRINTER (R14 to R16) -/

/-- Takes a counted run: a count byte and that many bytes (R176). -/
def takeCounted : List Byte → Option (List Byte × List Byte)
  | [] => none
  | n :: rest => if rest.length < n.toNat then none else some (rest.take n.toNat, rest.drop n.toNat)

/-- The parts of a SET PRINTER body: the leading numbers with the name's presence byte, the name's
characters, the channel bytes, and the trailing numbers. -/
def printerBody (body : List Byte) : Option (List Nat × List Byte × List Byte × List Nat) :=
  match takeFields [1, 1, 1, 1, 1] body with
  | none => none
  | some (lead, rest) =>
    match takeCounted rest with
    | none => none
    | some (name, rest) =>
      match takeCounted rest with
      | none => none
      | some (channels, rest) =>
        match fields [1, 1, 1, 1, 1, 1, 1, 1, 1, 1, 1, 1, 2, 1, 2] rest with
        | none => none
        | some tail => some (lead, name, channels, tail)

/-- A display name field: 1 to 16 characters, or absent; none outside its range (R2). Behind presence byte 0
the characters that its length byte announces are taken and not read (log entry 37). -/
def nameOf (pres : Nat) (name : Text) : Option (Option Text) :=
  match pres with
  | 0 => some none
  | 1 => if 1 ≤ name.length ∧ name.length ≤ 16 ∧ name.all isChar then some (some name) else none
  | _ => none

/-- A stock kind field: 0 to 15, or NONE; none outside its range (R2). -/
def kindOf (pres n : Nat) : Option (Option Nat) :=
  match optOf pres n with
  | some (some k) => if k < Config.stockKinds then some (some k) else none
  | other => other

/-- The six stock kinds. -/
def kindsOf : List Nat → Option (ByChannel (Option Nat))
  | [p0, k0, p1, k1, p2, k2, p3, k3, p4, k4, p5, k5] =>
    match kindOf p0 k0, kindOf p1 k1, kindOf p2 k2, kindOf p3 k3, kindOf p4 k4, kindOf p5 k5 with
    | some a, some b, some c, some e, some f, some g => some ⟨a, b, c, e, f, g⟩
    | _, _, _, _, _, _ => none
  | _ => none

def printerInRange (slot : Nat) (s : PrinterSettings) : Bool :=
  slot < Config.printers && s.rateClass < Config.classes && s.group ≤ 31
    && 10 ≤ s.reportInterval && s.reportInterval ≤ 600 && 1 ≤ s.missedLimit && s.missedLimit ≤ 15
    && s.serviceInterval ≤ 65535

/-- The slot and record that the parts make; none where a field is out of range (R14). -/
def printerRecord : List Nat × List Byte × List Byte × List Nat → Option (Nat × PrinterSettings)
  | ([slot, en, cls, group, pres], name, channels, tail) =>
    match boolOf en, nameOf pres name, channelSetOf channels, kindsOf (tail.take 12), tail.drop 12 with
    | some enabled, some nm, some set, some kinds, [interval, missed, service] =>
      let s : PrinterSettings := ⟨enabled, cls, group, nm, set, kinds, interval, missed, service⟩
      if printerInRange slot s then some (slot, s) else none
    | _, _, _, _, _ => none
  | _ => none

def Device.putSettings (d : Device) (slot : Nat) (s : PrinterSettings) : Device :=
  { d with work := { d.work with printers := d.work.printers.put {} slot s } }

/-- An unconfigured slot becomes configured (R9, R14). -/
def Device.configure (d : Device) (slot : Nat) (s : PrinterSettings) : Device :=
  let now := (d.putSettings slot s).modPrinter slot fun p =>
    p.fresh (after d.uptime s.reportInterval)
  (Device.evaluateMoved d now).rederive slot

/-- The silence deadline after a change of the report interval (R9). -/
def Printer.newInterval (p : Printer) (changed : Bool) (deadline : Time) : Printer :=
  if changed && !p.retired then { p with silenceDeadline := some deadline } else p

/-- The detectors that a changed settings record reaches (R9, R11, R15). -/
def Device.handChanges (d : Device) (slot : Nat) (was now : PrinterSettings) : Device :=
  let silence := if was.missedLimit = now.missedLimit then d else d.handSilence slot
  let due := if was.serviceInterval = now.serviceInterval then silence else silence.handServiceDue slot
  if was.channels = now.channels then due
  else ((due.handSupplyEmpty slot).handConsumption slot).evaluateSupplyFlags slot

/-- The changed fields of a configured slot take effect (R15); a record of the same values changes
nothing. DESIGN CHOICE (log entry 49): the detectors act before the stock kinds whose demand moved. -/
def Device.changePrinter (d : Device) (slot : Nat) (s : PrinterSettings) : Device :=
  let was := d.settings slot
  if was = s then d
  else
    let stored := (d.putSettings slot s).modPrinter slot fun p =>
      (p.resetChannels was.channels s.channels).newInterval (was.reportInterval ≠ s.reportInterval)
        (after d.uptime s.reportInterval)
    Device.finishEvent d slot (Device.evaluateMoved d (stored.handChanges slot was s))

/-- Some ticket in the store targets the slot by number (R16). -/
def Device.isTargeted (d : Device) (slot : Nat) : Bool :=
  d.ticketList.any fun e => e.2.target = .printer slot

/-- A retired slot becomes UNCONFIGURED (R16). -/
def Device.unconfigure (d : Device) (slot : Nat) (s : PrinterSettings) : Device :=
  (Device.evaluateMoved d ((d.putSettings slot s).modPrinter slot Printer.cleared)).rederive slot

/-- SET PRINTER with its fields in range (R14, R16). -/
def setPrinterTaken (slot : Nat) (s : PrinterSettings) (d : Device) : Device × List Byte :=
  match d.configured slot, s.enabled with
  | false, false => answer (d.putSettings slot s) []
  | false, true => answer (d.configure slot s) []
  | true, true => answer (d.changePrinter slot s) []
  | true, false =>
    if (d.printer slot).retired && !d.isTargeted slot then answer (d.unconfigure slot s) []
    else refuse .state d

/-- SET PRINTER (R14). -/
def setPrinter (body : List Byte) (d : Device) : Device × List Byte :=
  match printerBody body with
  | none => refuse .badLength d
  | some parts =>
    match printerRecord parts with
    | none => refuse .badField d
    | some (slot, s) => unlessSaving d (setPrinterTaken slot s d)

/-! ## RETIRE PRINTER (R17) -/

/-- A ticket that targets the slot by number, retargeted to the group. -/
def Ticket.retarget (slot group : Nat) (t : Ticket) : Ticket :=
  if t.target = .printer slot then { t with target := .group group } else t

/-- Every ticket that targets the slot is retargeted to a group (R17). -/
def Device.retargetAll (d : Device) (slot group : Nat) : Device :=
  { d with tickets := d.tickets.mapAll none fun t => t.map (Ticket.retarget slot group) }

/-- The forecast records with every absence mark cleared: P returns to Pk (R25). -/
def Printer.unmarked (p : Printer) : Printer :=
  { p with
    marks := ⟨false, false, false, false, false, false⟩
    forecasts := ByChannel.ofFn fun ch =>
      if p.marks.get ch then (p.forecasts.get ch).onMark false else p.forecasts.get ch }

/-- The records of a printer that is retired (R9, R17, log entry 16). -/
def Printer.retire (p : Printer) : Printer :=
  { p.unmarked with
    retired := true
    inService := false
    missed := 0
    silenceDeadline := none
    faults := ⟨{}, {}, {}, {}, {}, {}, {}, {}, {}, {}, {}, {}⟩ }

/-- A retirement (R17), its effects in the order of log entry 49. -/
def Device.retirePrinter (d : Device) (slot : Nat) : Device :=
  let retired := (((d.retargetAll slot (d.settings slot).group).modPrinter slot
    Printer.retire).redays slot).evaluateSupplyFlags slot
  ((Device.evaluateMoved d retired).leavePending slot).freeCalloutOf slot |>.rederive slot

/-- RETIRE PRINTER (R17). -/
def retirePrinter : List Byte → Device → Device × List Byte :=
  withFields [1] fun vs d =>
    let slot := vs.headD 0
    if Config.printers ≤ slot then refuse .badField d
    else if !d.configured slot then refuse .notFound d
    else if (d.printer slot).retired then refuse .state d
    else if !(d.queue slot).isEmpty then refuse .state d
    else answer (d.retirePrinter slot) []

/-! ## READ PRINTER (R18) -/

def printerSettingsBytes (s : PrinterSettings) : List Byte :=
  [boolByte s.enabled] ++ toBytes 1 s.rateClass ++ toBytes 1 s.group ++ optTextBytes s.name
    ++ channelSetBytes s.channels ++ Channel.all.flatMap (fun ch => optBytes 1 (s.kinds.get ch))
    ++ toBytes 2 s.reportInterval ++ toBytes 1 s.missedLimit ++ toBytes 2 s.serviceInterval

def totalsBytes (t : Totals) : List Byte :=
  toBytes 4 t.mono ++ toBytes 4 t.colour ++ toBytes 4 t.sheets

/-- The last totals, each a value or UNSET. -/
def lastTotalsBytes (t : Option Totals) : List Byte :=
  optBytes 4 (t.map Totals.mono) ++ optBytes 4 (t.map Totals.colour) ++ optBytes 4 (t.map Totals.sheets)

/-- The runtime fields of READ PRINTER. -/
def printerRuntimeBytes (d : Device) (slot : Nat) : List Byte :=
  let p := d.printer slot
  toBytes 1 p.derived.number ++ [boolByte p.retired, boolByte p.inService]
    ++ lastTotalsBytes p.lastTotals ++ toBytes 1 p.missed
    ++ optBytes 2 (p.silenceDeadline.map (secondsLeft d.uptime)) ++ totalsBytes p.printing
    ++ optBytes 4 (p.lastAdvance.map (secondsSince d.uptime)) ++ toBytes 4 p.dailyAll
    ++ toBytes 4 p.dailyColour ++ toBytes 4 p.sinceService ++ toBytes 1 (d.queue slot).length
    ++ optBytes 4 ((d.printingTicket slot).map fun e => e.2.jobId)

/-- READ PRINTER (R18). -/
def readPrinter : List Byte → Device → Device × List Byte :=
  withFields [1] fun vs d =>
    let slot := vs.headD 0
    if Config.printers ≤ slot then refuse .badField d
    else if !d.configured slot then
      answer d (toBytes 1 PrinterState.unconfigured.number ++ printerSettingsBytes (d.settings slot))
    else answer d (printerSettingsBytes (d.settings slot) ++ printerRuntimeBytes d slot)

end Sys2Proof.Machine
end

