-- ==== Sys2Proof/Machine/Service.lean ====
section
/-! DEFINITION. Clearing and service (spec 02 and 03): CLEAR FAULT, CLOSE CALLOUT, END SERVICE, and what the
ATTEND and SERVICE DONE keys do to a printer and its callout. -/

namespace Sys2Proof.Machine

/-! ## CLEAR FAULT (R38, R49) -/

/-- The classes a selector byte covers: one class by its number, or 12 for ALL (log entry 8). -/
def coveredClasses (sel : Nat) : Option (List FaultClass) :=
  if sel = 12 then some FaultClass.all else (FaultClass.ofNumber sel).map fun c => [c]

/-- Clears the covered classes of a printer (R38). -/
def Device.clearFaults (d : Device) (slot : Nat) (classes : List FaultClass) : Device :=
  d.modPrinter slot fun p =>
    { p with faults := ByClass.ofFn fun cls =>
        if classes.contains cls then (p.faults.get cls).clearFault else p.faults.get cls }

/-- A taken CLEAR FAULT: the state is derived again, and the pending list is told (R37, R38, R49). DESIGN CHOICE
(log entry 39): the list is told at every taken CLEAR FAULT, also when it cleared no latched class. -/
def Device.takeClearFault (d : Device) (slot : Nat) (classes : List FaultClass) : Device :=
  ((d.clearFaults slot classes).rederive slot).afterClearFault slot

/-- The classes still active after a CLEAR FAULT give STILL_ACTIVE (R38). -/
def Device.clearStatus (d : Device) (slot : Nat) (classes : List FaultClass) : Status :=
  if classes.any fun cls => (d.fault slot cls).stillActive then .stillActive else .ok

/-- CLEAR FAULT (R38). -/
def clearFault : List Byte → Device → Device × List Byte :=
  withFields [1, 1] fun vs d =>
    let slot := vs.headD 0
    match coveredClasses (vs.getD 1 0) with
    | none => refuse .badField d
    | some classes =>
      if Config.printers ≤ slot then refuse .badField d
      else if !d.configured slot then refuse .notFound d
      else if (d.printer slot).retired then refuse .state d
      else
        (d.takeClearFault slot classes,
          (d.clearStatus slot classes).byte ::
            (classSetBytes ((d.takeClearFault slot classes).latchedSet slot)
              ++ classSetBytes ((d.takeClearFault slot classes).holdoffSet slot)))

/-! ## CLOSE CALLOUT (R57) -/

/-- The latched inactive classes cleared, and the state derived again (R37). -/
def Device.clearPrinter (d : Device) (slot : Nat) : Device := (d.clearLatches slot).rederive slot

/-- CLOSE CALLOUT on record `n`: freed when nothing that needs a visit remains (R57). -/
def Device.closeCallout (d : Device) (n : Nat) (c : Callout) : Device :=
  if (d.clearPrinter c.printer).needsVisit c.printer then d.clearPrinter c.printer
  else (d.clearPrinter c.printer).freeCalloutRecord n

/-- CLOSE CALLOUT (R57): the reply carries the printer's latched classes. -/
def closeCallout : List Byte → Device → Device × List Byte :=
  withFields [2] fun vs d =>
    match d.calloutBySerial (vs.headD 0) with
    | none => refuse .notFound d
    | some (n, c) =>
      let status := if (d.clearPrinter c.printer).needsVisit c.printer then .stillActive else .ok
      (d.closeCallout n c,
        Status.byte status :: classSetBytes ((d.closeCallout n c).latchedSet c.printer))

/-! ## ATTEND (R53, R54) -/

/-- The printer enters SERVICE (R53). -/
def Device.enterService (d : Device) (slot : Nat) : Device :=
  (d.modPrinter slot fun p => { p with inService := true }).rederive slot

/-- The technician of an ATTENDED record becomes another (R53). -/
def Callout.reattend (c : Callout) (tech : Nat) : Callout :=
  match c.phase with
  | .attended _ => { c with phase := .attended tech }
  | .opened _ | .dispatched _ => c

/-- ATTEND by a technician at a printer (R53). -/
def Device.attend (d : Device) (slot tech : Nat) : Device × ServiceOutcome :=
  if !d.live slot then (d, .notAvailable)
  else
    match (d.printer slot).inService, d.calloutOf slot with
    | true, some (n, c) => (d.putCallout n (some (c.reattend tech)), .alreadyInService)
    | true, none => (d, .alreadyInService)
    | false, some (n, c) =>
      ((d.putCallout n (some { c with phase := .attended tech })).enterService slot, .attended)
    | false, none => ((d.leavePending slot).enterService slot, .checkedIn)

/-! ## SERVICE DONE and END SERVICE (R55, R56) -/

/-- The printer leaves SERVICE (R55 step 3, R56). -/
def Device.leaveService (d : Device) (slot : Nat) : Device :=
  (d.modPrinter slot fun p => { p with inService := false }).rederive slot

/-- A record returns to DISPATCHED with the remaining set; a revisit also raises its level and count
(R55 step 4, R56). -/
def Callout.redispatch (c : Callout) (classes : ByClass Bool) (deadline : Time) (revisit : Bool) :
    Callout :=
  { c with
    classes := classes
    phase := .dispatched deadline
    level := if revisit then min 3 (c.level + 1) else c.level
    revisits := if revisit then satAdd 255 c.revisits 1 else c.revisits }

/-- The class and code under which a printer without a record opens a callout at the end of its service: the first
remaining class with an activation code (R55 step 4). DESIGN CHOICE (log entry 31): where none has one, the first
remaining class, and no code. -/
def Device.returnClass (d : Device) (slot : Nat) : FaultClass × Option Nat :=
  match (d.calloutClasses slot).members.find? fun cls => (d.fault slot cls).code.isSome with
  | some cls => (cls, (d.fault slot cls).code)
  | none => ((d.calloutClasses slot).members.headD .other, none)

/-- Takes the remaining set of a printer that has left SERVICE (R55 steps 4 and 5, R56). -/
def Device.takeRemaining (d : Device) (slot : Nat) (revisit : Bool) : Device :=
  match d.needsVisit slot, d.calloutOf slot with
  | false, _ => d.freeCalloutOf slot
  | true, some (n, c) =>
    let back := d.putCallout n (some (c.redispatch (d.calloutClasses slot)
      (after d.uptime (d.responseTime (d.calloutClasses slot))) revisit))
    if revisit then back.raise .revisit else back
  | true, none => d.openOrPend slot (d.returnClass slot).1 (d.returnClass slot).2

/-- Steps 1 to 3 of R55. -/
def Device.endOfService (d : Device) (slot : Nat) : Device :=
  (((d.modPrinter slot fun p => { p with sinceService := 0 }).handServiceDue slot).clearLatches
    slot).leaveService slot

/-- SERVICE DONE at a printer (R55). -/
def Device.serviceDone (d : Device) (slot : Nat) : Device × ServiceOutcome :=
  if !d.live slot then (d, .notAvailable)
  else if !(d.printer slot).inService then (d, .notInService)
  else
    let ended := d.endOfService slot
    (ended.takeRemaining slot true, if ended.needsVisit slot then .revisit else .done)

/-- END SERVICE (R56). -/
def endService : List Byte → Device → Device × List Byte :=
  withFields [1] fun vs d =>
    let slot := vs.headD 0
    if Config.printers ≤ slot then refuse .badField d
    else if !d.configured slot then refuse .notFound d
    else if !(d.printer slot).inService then refuse .state d
    else answer ((d.leaveService slot).takeRemaining slot false) []

end Sys2Proof.Machine
end

