-- ==== Sys2Proof/Machine/Terminals.lean ====
section
/-! DEFINITION. The floor line controllers (spec 07): screens, sessions, presence, polling, and the terminal
requests; with the badge lookup and the PIN check of spec 04. -/

namespace Sys2Proof.Machine

/-! ## Screens (R132, R133) -/

/-- Makes a screen for a terminal: it replaces any pending screen, and a running follow-up is cancelled. -/
def Terminal.make (t : Terminal) (screen : Screen) (follow : Option FollowUp) : Terminal :=
  { t with pending := some ⟨screen, follow, false⟩, follow := none }

/-- Screens are made only while the terminal is PRESENT. -/
def Device.makeScreen (d : Device) (i : Nat) (screen : Screen) (follow : Option FollowUp := none) :
    Device :=
  if (d.terminal i).presence = .present then d.modTerminal i fun t => t.make screen follow else d

/-- The printer slot a terminal is bound to (R123). -/
def Device.boundPrinter (d : Device) (i : Nat) : Nat := (d.terminalSettings i).printer

/-- What WELCOME calls a printer: its display name, or its slot number when it has none (R133). -/
def Device.printerTitle (d : Device) (slot : Nat) : PrinterTitle :=
  match (d.settings slot).name with
  | some text => .name text
  | none => .slot slot

/-- WELCOME for a terminal (R133). -/
def Device.welcomeScreen (d : Device) (i : Nat) : Screen :=
  .welcome (d.printerTitle (d.boundPrinter i)) (d.settings (d.boundPrinter i)).group

/-- The whole minutes, rounded up, before an account's locked-until, when one is present. -/
def Device.lockMinutes (d : Device) (account : Nat) : Option Nat :=
  (d.accountTotals account).lockedUntil.map fun t => ceilDiv (secondsLeft d.uptime t) 60

/-- LOCKED for an account. -/
def Device.lockedScreen (d : Device) (reason : LockReason) (account : Nat) : Screen :=
  .locked reason (d.lockMinutes account)

/-- The callout line of a SERVICE screen: the printer's record, its position in the pending list, or
neither; whole minutes to the deadline are rounded down (log entry 34). -/
def Device.serviceCallout (d : Device) (slot : Nat) : ServiceCallout :=
  match d.calloutOf slot, d.pendingPosition slot with
  | some (_, c), _ =>
    .record c.serial c.phase.state c.classes c.level
      (c.deadline.map fun t => secondsLeft d.uptime t / 60)
  | none, some n => .pendingAt n
  | none, none => .neither

/-- SERVICE for a terminal with the last outcome of the session. -/
def Device.serviceScreen (d : Device) (i : Nat) (last : Option ServiceOutcome) : Screen :=
  .service (d.boundPrinter i) (d.settings (d.boundPrinter i)).name
    (d.printer (d.boundPrinter i)).derived (d.serviceCallout (d.boundPrinter i)) last

/-- RESULT and LOCKED screens set a follow-up when they are delivered (R132). -/
def Screen.setsFollowUp : Screen → Bool
  | .result _ _ | .locked _ _ => true
  | .welcome _ _ | .pinEntry _ | .jobList _ | .service _ _ _ _ _ => false

/-- A good answer delivers the screen that the outstanding POLL carries (R132). -/
def Terminal.deliver (t : Terminal) (now : Time) : Terminal :=
  match t.pending with
  | none => t
  | some p =>
    if p.carried then
      { t with
        pending := none
        follow :=
          if p.screen.setsFollowUp then p.follow.map fun k => (after now Config.followUpSeconds, k)
          else t.follow }
    else t

/-! ## Sessions (R134, R139) -/

def Session.account : Session → Option Nat
  | .none => Option.none
  | .pinWait a _ | .listing a _ _ _ | .serviceMenu a _ _ => some a

def Session.idle : Session → Option Time
  | .none => Option.none
  | .pinWait _ t | .listing _ t _ _ | .serviceMenu _ t _ => some t

def Session.page : Session → Option Nat
  | .listing _ _ p _ => some p
  | .none | .pinWait _ _ | .serviceMenu _ _ _ => Option.none

/-- The session is open. -/
def Session.isOpen (s : Session) : Bool := s.account.isSome

/-- The session with its idle deadline restarted. -/
def Session.restart (deadline : Time) : Session → Session
  | .none => .none
  | .pinWait a _ => .pinWait a deadline
  | .listing a _ p refs => .listing a deadline p refs
  | .serviceMenu a _ last => .serviceMenu a deadline last

/-- A follow-up of kind JOB LIST becomes one of kind WELCOME (R139). -/
def FollowUp.atEnd : FollowUp → FollowUp
  | .welcome | .jobList _ => .welcome

/-- A session ends (R139), without a screen. -/
def Terminal.endSession (t : Terminal) : Terminal :=
  { t with
    session := .none
    follow := t.follow.map fun f => (f.1, f.2.atEnd)
    pending := t.pending.map fun p => { p with follow := p.follow.map FollowUp.atEnd } }

/-- The idle deadline of a terminal's line, from now (R134). -/
def Device.idleFrom (d : Device) (i : Nat) : Time := after d.uptime (d.lineSettings (i / 32)).idleTimeout

def Device.setSession (d : Device) (i : Nat) (s : Session) : Device :=
  d.modTerminal i fun t => { t with session := s }

/-- Builds the listing of an account at a terminal and makes JOB LIST; the session keeps its reference page
and page number (R105, R134). -/
def Device.showListing (d : Device) (i account : Nat) (idle : Time) (requested : Nat) : Device :=
  let q := d.boundPrinter i
  (d.setSession i (.listing account idle (d.listingPage account q requested).number
    (d.listingRefs account q requested))).makeScreen i (.jobList (d.listingPage account q requested))

/-- A session ends with a screen (R139). -/
def Device.endWith (d : Device) (i : Nat) (screen : Screen) (follow : Option FollowUp := none) : Device :=
  (d.modTerminal i Terminal.endSession).makeScreen i screen follow

/-- The session at a terminal is open, and the terminal PRESENT, for an account that meets a test. -/
def Terminal.sessionOf (t : Terminal) (test : Nat → Bool) : Bool :=
  t.presence = .present && t.session.account.any test

/-- The hand-off of R64: the sessions of the accounts that meet a test end on every PRESENT terminal, with
LOCKED. -/
def Device.endSessions (d : Device) (test : Nat → Bool) (reason : LockReason) : Device :=
  (List.range Config.terminals).foldl
    (fun d i =>
      if (d.terminal i).sessionOf test then
        d.endWith i (d.lockedScreen reason ((d.terminal i).session.account.getD 0)) (some .welcome)
      else d) d

/-! ## Badge lookup and PIN check (R70, R74) -/

inductive BadgeOutcome where
  | unknownBadge
  | notUsable (account : Nat)
  | pinNotSet
  | pin (account : Nat)
  | user (account : Nat)
  | tech (account : Nat)
  deriving DecidableEq, Repr

/-- The credential entry holds the token. -/
def Credentials.holds (c : Credentials) (token : BitVec 64) : Bool :=
  c.token1 = some token || c.token2 = some token

/-- The account a token is bound to. -/
def Device.tokenOwner (d : Device) (token : BitVec 64) : Option Nat :=
  (d.work.credentials.entries.find? fun e => e.2.holds token).map Prod.fst

/-- The badge lookup (R70), the first case that holds. -/
def Device.lookupBadge (d : Device) (token : BitVec 64) : BadgeOutcome :=
  if token = 0 then .unknownBadge
  else
    match d.tokenOwner token with
    | none => .unknownBadge
    | some a =>
      if !d.usable a then .notUsable a
      else if (d.accountSettings a).pinRequired then
        if (d.credentials a).digest.isNone then .pinNotSet else .pin a
      else
        match (d.accountSettings a).role with
        | .user => .user a
        | .tech => .tech a

inductive PinOutcome where
  | pass
  | mismatch (left : Nat)
  | lockedOut
  | notUsable
  | pinNotSet
  deriving DecidableEq, Repr

/-- A wrong PIN: the failure count rises, and the account locks at the limit (R74). -/
def Device.pinFailure (d : Device) (account : Nat) : Device × PinOutcome :=
  let count := min 15 ((d.accountTotals account).failures + 1)
  let limit := d.work.guard.failureLimit
  if (d.accountTotals account).failures + 1 < limit then
    (d.modAccount account fun a => { a with failures := count },
      .mismatch (limit - ((d.accountTotals account).failures + 1)))
  else
    ((d.modAccount account fun a =>
        { a with
          failures := count
          lockedUntil := some (after d.uptime (d.work.guard.lockoutMinutes * 60)) }).raise .accountLocked,
      .lockedOut)

/-- The PIN check (R74), the first case that holds. -/
def Device.checkPin (d : Device) (account : Nat) (digest : BitVec 32) : Device × PinOutcome :=
  if !d.usable account then (d, .notUsable)
  else if !(d.accountSettings account).pinRequired then (d, .pass)
  else
    match (d.credentials account).digest with
    | none => (d, .pinNotSet)
    | some stored =>
      if stored = digest then (d.modAccount account fun a => { a with failures := 0 }, .pass)
      else d.pinFailure account

/-! ## Events of a session (R135 to R138) -/

/-- The keys of R137; `unknown` is a key code that names none of them. -/
inductive Key where
  | release (n : Nat)
  | releaseAll
  | cancel (n : Nat)
  | nextPage
  | logout
  | attend
  | serviceDone
  | unknown
  deriving DecidableEq, Repr

/-- Opens a session of the account's role (R135, R136). -/
def Device.openRole (d : Device) (i account : Nat) (role : Role) : Device :=
  match role with
  | .user => d.showListing i account (d.idleFrom i) 1
  | .tech =>
    (d.setSession i (.serviceMenu account (d.idleFrom i) none)).makeScreen i (d.serviceScreen i none)

/-- Any open session ends, and a session opens by a badge outcome (R135). -/
def Device.openByBadge (d : Device) (i : Nat) (o : BadgeOutcome) : Device :=
  let ended := d.modTerminal i Terminal.endSession
  match o with
  | .pin a => (ended.setSession i (.pinWait a (d.idleFrom i))).makeScreen i (.pinEntry none)
  | .user a => ended.openRole i a .user
  | .tech a => ended.openRole i a .tech
  | .unknownBadge | .notUsable _ | .pinNotSet => ended

/-- The same-account rows of R135: PIN, USER or TECH naming the account of the open session. A PIN_WAIT
ends by USER and TECH as for another account. -/
def Device.sameAccountBadge (d : Device) (i account : Nat) (o : BadgeOutcome) : Device :=
  match (d.terminal i).session with
  | .listing _ idle _ _ => d.showListing i account idle 1
  | .serviceMenu _ _ last => d.makeScreen i (d.serviceScreen i last)
  | .pinWait _ _ =>
    match o with
    | .pin _ => d.makeScreen i (.pinEntry none)
    | .user _ | .tech _ | .unknownBadge | .notUsable _ | .pinNotSet => d.openByBadge i o
  | .none => d.openByBadge i o

/-- An accepted BADGE (R135). -/
def Device.takeBadge (d : Device) (i : Nat) (token : BitVec 64) : Device :=
  match d.lookupBadge token with
  | .unknownBadge => d.endWith i (.result (some .unknownBadge) .nothing) (some .welcome)
  | .notUsable a => d.endWith i (d.lockedScreen .notUsable a) (some .welcome)
  | .pinNotSet => d.endWith i (.result (some .pinNotSet) .nothing) (some .welcome)
  | .pin a =>
    if (d.terminal i).session.account = some a then d.sameAccountBadge i a (.pin a)
    else d.openByBadge i (.pin a)
  | .user a =>
    if (d.terminal i).session.account = some a then d.sameAccountBadge i a (.user a)
    else d.openByBadge i (.user a)
  | .tech a =>
    if (d.terminal i).session.account = some a then d.sameAccountBadge i a (.tech a)
    else d.openByBadge i (.tech a)

/-- What a PIN outcome does to the session (R136). LOCKED_OUT also ends the account's other sessions
(R64). -/
def Device.takePinOutcome (d : Device) (i account : Nat) : PinOutcome → Device
  | .pass => d.openRole i account (d.accountSettings account).role
  | .mismatch left => d.makeScreen i (.pinEntry (some left))
  | .lockedOut =>
    (d.endWith i (d.lockedScreen .lockedOut account) (some .welcome)).endSessions (· = account) .lockedOut
  | .notUsable => d.endWith i (d.lockedScreen .notUsable account) (some .welcome)
  | .pinNotSet => d.endWith i (.result (some .pinNotSet) .nothing) (some .welcome)

/-- An accepted PIN: it reaches the account table in PIN_WAIT alone (R136). -/
def Device.takePin (d : Device) (i : Nat) (digest : BitVec 32) : Device :=
  match (d.terminal i).session with
  | .pinWait a _ => (d.checkPin a digest).1.takePinOutcome i a (d.checkPin a digest).2
  | .none | .listing _ _ _ _ | .serviceMenu _ _ _ => d

/-- The entry at a position 1 to 4 of a reference page. -/
def refAt (refs : List PageRef) (n : Nat) : Option PageRef := if n = 0 then none else refs[n - 1]?

/-- The title or job id that a RESULT shows for a reference: that of the ticket while its slot holds the
job id, else the reference's job id (log entry 32). -/
def Device.refName (d : Device) (r : PageRef) : JobName :=
  match d.ticket r.ticket with
  | some t => if t.jobId = r.jobId then t.name else .jobId r.jobId
  | none => .jobId r.jobId

/-- RELEASE n in LISTING (R107, R137). -/
def Device.keyRelease (d : Device) (i account page : Nat) (refs : List PageRef) (n : Nat) : Device :=
  match refAt refs n with
  | none =>
    d.makeScreen i (.result (some (.release .ticketGone)) (.job none)) (some (.jobList page))
  | some r =>
    (d.releaseRef account (d.boundPrinter i) r).1.makeScreen i
      (.result (some (.release (d.releaseRef account (d.boundPrinter i) r).2)) (.job (some (d.refName r))))
      (some (.jobList page))

/-- RELEASE ALL in LISTING (R110, R137): the RESULT carries the number released and the first refusal. DESIGN
CHOICE (log entry 44): it carries no code beside them. -/
def Device.keyReleaseAll (d : Device) (i account : Nat) : Device :=
  let w := d.releaseWalk account (d.boundPrinter i)
  w.device.makeScreen i (.result none (.walk w.released w.first)) (some (.jobList 1))

/-- CANCEL n in LISTING (R109, R137). -/
def Device.keyCancel (d : Device) (i account page : Nat) (idle : Time) (refs : List PageRef) (n : Nat) :
    Device :=
  match refAt refs n with
  | none =>
    d.makeScreen i (.result (some (.release .ticketGone)) .nothing) (some (.jobList page))
  | some r =>
    match d.cancelRef account (d.boundPrinter i) r with
    | none => d.makeScreen i (.result (some (.release .ticketGone)) .nothing) (some (.jobList page))
    | some now => now.showListing i account idle page

/-- NEXT PAGE in LISTING: page 1 follows the last page (R137). -/
def Device.keyNextPage (d : Device) (i account page : Nat) (idle : Time) : Device :=
  let count := (d.listingPage account (d.boundPrinter i) (page + 1)).count
  d.showListing i account idle (if count < page + 1 then 1 else page + 1)

/-- An accepted KEY in LISTING (R137). -/
def Device.keyInListing (d : Device) (i account : Nat) (idle : Time) (page : Nat) (refs : List PageRef) :
    Key → Device
  | .release n => if 1 ≤ n ∧ n ≤ 4 then d.keyRelease i account page refs n else d
  | .releaseAll => d.keyReleaseAll i account
  | .cancel n => if 1 ≤ n ∧ n ≤ 4 then d.keyCancel i account page idle refs n else d
  | .nextPage => d.keyNextPage i account page idle
  | .logout => d.endWith i (d.welcomeScreen i)
  | .attend | .serviceDone | .unknown => d

/-- The outcome of an ATTEND or SERVICE DONE becomes the session's last outcome, and a SERVICE screen is
made with it (R138). -/
def Device.showService (d : Device) (i account : Nat) (idle : Time) (o : ServiceOutcome) : Device :=
  (d.setSession i (.serviceMenu account idle (some o))).makeScreen i (d.serviceScreen i (some o))

/-- An accepted KEY in SERVICE_MENU (R138). -/
def Device.keyInService (d : Device) (i account : Nat) (idle : Time) : Key → Device
  | .attend =>
    (d.attend (d.boundPrinter i) account).1.showService i account idle
      (d.attend (d.boundPrinter i) account).2
  | .serviceDone =>
    (d.serviceDone (d.boundPrinter i)).1.showService i account idle (d.serviceDone (d.boundPrinter i)).2
  | .logout => d.endWith i (d.welcomeScreen i)
  | .release _ | .releaseAll | .cancel _ | .nextPage | .unknown => d

/-- An accepted KEY (R137, R138). -/
def Device.takeKey (d : Device) (i : Nat) (k : Key) : Device :=
  match (d.terminal i).session with
  | .none => d
  | .pinWait _ _ =>
    match k with
    | .logout => d.endWith i (d.welcomeScreen i)
    | .release _ | .releaseAll | .cancel _ | .nextPage | .attend | .serviceDone | .unknown => d
  | .listing a idle page refs => d.keyInListing i a idle page refs k
  | .serviceMenu a idle _ => d.keyInService i a idle k

/-- What a BADGE, PIN or KEY answer brings. -/
inductive Event where
  | badge (token : BitVec 64)
  | pin (digest : BitVec 32)
  | key (k : Key)
  deriving DecidableEq, Repr

def Device.takeEvent (d : Device) (i : Nat) : Event → Device
  | .badge token => d.takeBadge i token
  | .pin digest => d.takePin i digest
  | .key k => d.takeKey i k

/-- An event of a good poll of a PRESENT terminal is accepted when its toggle differs from the ack bit;
an accepted event restarts the idle deadline of an open session (R131, R134). -/
def Device.acceptEvent (d : Device) (i : Nat) (toggle : Bool) (e : Event) : Device :=
  if toggle = (d.terminal i).ack then d
  else
    (d.modTerminal i fun t =>
      { t with ack := toggle, session := t.session.restart (d.idleFrom i) }).takeEvent i e

/-! ## Presence (R127 to R130) -/

/-- The oldest outcome leaves the poll window and a new one joins it (R130). -/
def pushOutcome (good : Bool) (w : List Bool) : List Bool := w.drop 1 ++ [good]

def goodCount (w : List Bool) : Nat := w.countP id

/-- The record of a terminal that is lost (R130). -/
def Terminal.lose (t : Terminal) (deadline : Time) : Terminal :=
  { t.endSession with
    pending := none
    follow := none
    presence := .absent
    lostDeadline := some deadline }

/-- The record of a terminal that enters PRESENT, before its WELCOME is made (R130). -/
def Terminal.enter (t : Terminal) : Terminal :=
  { t with
    presence := .present
    window := [true, true, true, true, true, true, true, true]
    ack := false
    lostDeadline := none }

/-- Entry to PRESENT (R130). -/
def Device.enterPresent (d : Device) (i : Nat) : Device :=
  ((d.modTerminal i Terminal.enter).makeScreen i (d.welcomeScreen i)).raise .terminalJoined i

/-- The third JOIN GRANT poll ends without READY (R129). -/
def Terminal.failJoin (t : Terminal) : Terminal :=
  { t with presence := .absent, joinedSerial := none, joinPolls := 0 }

/-- A JOINING terminal did not answer READY (R129). -/
def Terminal.missJoin (t : Terminal) : Terminal := if t.joinPolls < 3 then t else t.failJoin

/-- A JOIN REQUEST taken in ABSENT (R128): a refused serial is kept, any other starts the join. -/
def Terminal.takeSerial (t : Terminal) (expected : Option Nat) (serial : Nat) : Terminal :=
  if serial = 0 ∨ expected.any (· ≠ serial) then { t with refusedSerial := some serial }
  else { t with presence := .joining, joinedSerial := some serial, joinPolls := 0 }

/-- A terminal that restarted on its own goes through ABSENT without a loss (R130). -/
def Terminal.restartJoin (t : Terminal) : Terminal :=
  { t.endSession with pending := none, follow := none, presence := .absent }

def Device.takeSerial (d : Device) (i serial : Nat) : Device :=
  d.modTerminal i fun t => t.takeSerial (d.terminalSettings i).expected serial

/-- A bad poll, by the terminal's presence (R128 to R130, R132). -/
def Device.badPoll (d : Device) (i : Nat) : Device :=
  match (d.terminal i).presence with
  | .absent => d
  | .joining => d.modTerminal i Terminal.missJoin
  | .present =>
    let pushed := d.modTerminal i fun t => { t with window := pushOutcome false t.window }
    if goodCount (pushed.terminal i).window < 3 then
      (pushed.modTerminal i fun t => t.lose (after d.uptime Config.recentlyLost)).raise .terminalLost i
    else pushed

/-- The six message kinds a terminal sends (R125). -/
inductive Answer where
  | idle
  | joinRequest (serial : Nat)
  | ready
  | event (toggle : Bool) (e : Event)
  deriving DecidableEq, Repr

/-- A good answer of an ABSENT terminal (R128). -/
def Device.answerAbsent (d : Device) (i : Nat) : Answer → Device
  | .joinRequest serial => d.takeSerial i serial
  | .ready => if (d.terminal i).lostDeadline.isSome then d.enterPresent i else d
  | .idle | .event _ _ => d

/-- A good answer of a JOINING terminal (R129). -/
def Device.answerJoining (d : Device) (i : Nat) : Answer → Device
  | .ready => d.enterPresent i
  | .idle | .joinRequest _ | .event _ _ => d.modTerminal i Terminal.missJoin

/-- A good answer of a PRESENT terminal: it delivers the carried screen and joins the window; then its
event or join request is taken (R130 to R132). -/
def Device.answerPresent (d : Device) (i : Nat) (a : Answer) : Device :=
  let delivered := d.modTerminal i fun t =>
    { t.deliver d.uptime with window := pushOutcome true t.window }
  match a with
  | .idle | .ready => delivered
  | .joinRequest serial => (delivered.modTerminal i Terminal.restartJoin).takeSerial i serial
  | .event toggle e => delivered.acceptEvent i toggle e

/-- A good answer, by the terminal's presence. -/
def Device.goodPoll (d : Device) (i : Nat) (a : Answer) : Device :=
  match (d.terminal i).presence with
  | .absent => d.answerAbsent i a
  | .joining => d.answerJoining i a
  | .present => d.answerPresent i a

/-! ## Polling (R125, R126) -/

/-- The lowest configured address of a line above a given one. -/
def Device.nextAddress (d : Device) (line above : Nat) : Option Nat :=
  (List.range (Config.addresses + 1)).find? fun a =>
    above < a && (d.terminalSettings (terminalIndex line a)).configured

/-- The message of a poll, by the terminal's presence (R128 to R130). -/
def Device.pollMessage (d : Device) (i : Nat) : PollMessage :=
  match (d.terminal i).presence with
  | .absent => .poll false false none
  | .joining =>
    .joinGrant (d.settings (d.boundPrinter i)).name (d.settings (d.boundPrinter i)).group false
  | .present => .poll true (d.terminal i).ack ((d.terminal i).pending.map PendingScreen.screen)

/-- What sending a poll changes in the terminal's record: the pending screen is carried, and a JOIN GRANT
poll is counted (R129, R132, log entry 23). -/
def Terminal.polled (t : Terminal) : Terminal :=
  match t.presence with
  | .absent => t
  | .joining => { t with joinPolls := min 3 (t.joinPolls + 1) }
  | .present => { t with pending := t.pending.map fun p => { p with carried := true } }

def Device.setPhase (d : Device) (line : Nat) (ph : LinePhase) : Device :=
  d.modLine line fun l => { l with phase := ph }

/-- Sends the poll of an address: the line's poll is outstanding. -/
def Device.sendPoll (d : Device) (line address : Nat) : Device :=
  let i := terminalIndex line address
  (d.modTerminal i Terminal.polled).setPhase line (.polling address (d.pollMessage i))

/-- A cycle begins at the lowest configured address; without one the line sends nothing (R126). -/
def Device.startCycle (d : Device) (line : Nat) : Device :=
  match d.nextAddress line 0 with
  | some a => d.sendPoll line a
  | none => d.setPhase line .silent

/-- The pause is skipped: a terminal of the line has an open session or is JOINING (R126). -/
def Device.lineBusy (d : Device) (line : Nat) : Bool :=
  (List.range Config.addresses).any fun k =>
    (d.terminal (line * 32 + k)).session.isOpen || (d.terminal (line * 32 + k)).presence = .joining

/-- A cycle ends and is counted (R126, R141). -/
def Device.endCycle (d : Device) (line : Nat) : Device :=
  let counted := d.modLine line fun l => { l with cycles := satAdd Config.max32 l.cycles 1 }
  if (d.lineSettings line).quiet && !d.lineBusy line && (d.nextAddress line 0).isSome then
    counted.setPhase line (.pausing (after d.uptime Config.pauseSeconds))
  else counted.startCycle line

/-- The cursor moves to the next configured address above the one just polled (R126). -/
def Device.advance (d : Device) (line address : Nat) : Device :=
  match d.nextAddress line address with
  | some a => d.sendPoll line a
  | none => d.endCycle line

/-- The outstanding poll of a line ends: `f` takes its outcome at the polled terminal, unless the address
is no longer configured (log entry 23); then the cursor moves. DESIGN CHOICE (log entry 51): the outcome is judged by
the record as it stands now, also where SET TERMINAL has reset it since the poll was sent. -/
def Device.endPoll (d : Device) (line : Nat) (f : Device → Nat → Device) : Device :=
  match (d.line line).phase with
  | .polling address _ =>
    let i := terminalIndex line address
    (if (d.terminalSettings i).configured then f d i else d).advance line address
  | .silent | .pausing _ => d

/-- ANSWER_WINDOW_CLOSE and BAD_ANSWER (R125). -/
def Device.pollFails (d : Device) (line : Nat) : Device := d.endPoll line Device.badPoll

/-- A good answer to a line's outstanding poll (R125). -/
def Device.pollAnswered (d : Device) (line : Nat) (a : Answer) : Device :=
  d.endPoll line fun d i => d.goodPoll i a

/-- The line is pausing (R126, R141). -/
def Line.isPausing (l : Line) : Bool :=
  match l.phase with
  | .pausing _ => true
  | .silent | .polling _ _ => false

/-- A pause ends, and the next cycle begins (R124, R126). -/
def Device.endPause (d : Device) (line : Nat) : Device :=
  if (d.line line).isPausing then d.startCycle line else d

/-- QUIET_PAUSE_END: the 2 s of the line's pause have passed (R126). -/
def Device.quietPauseEnd (d : Device) (line : Nat) : Device :=
  match (d.line line).phase with
  | .pausing t => if passed d.uptime t then d.endPause line else d
  | .silent | .polling _ _ => d

/-! ## Deadlines of a terminal (R128, R132, R134) -/

/-- RECENTLY_LOST_EXPIRY (R128). -/
def Device.recentlyLostExpiry (d : Device) (i : Nat) : Device :=
  if (d.terminal i).lostDeadline.any (passed d.uptime) then
    d.modTerminal i fun t => { t with lostDeadline := none }
  else d

/-- IDLE_DEADLINE (R134, R139). -/
def Device.idleDeadline (d : Device) (i : Nat) : Device :=
  if (d.terminal i).session.idle.any (passed d.uptime) then d.endWith i (d.welcomeScreen i) else d

/-- The screen of a follow-up kind (R132). -/
def Device.followScreen (d : Device) (i : Nat) : FollowUp → Device
  | .welcome => d.makeScreen i (d.welcomeScreen i)
  | .jobList page =>
    match (d.terminal i).session with
    | .listing a idle _ _ => d.showListing i a idle page
    | .none | .pinWait _ _ | .serviceMenu _ _ _ => d.makeScreen i (d.welcomeScreen i)

/-- FOLLOW_UP (R132). -/
def Device.followUp (d : Device) (i : Nat) : Device :=
  match (d.terminal i).follow with
  | none => d
  | some (deadline, kind) =>
    if passed d.uptime deadline then
      (d.modTerminal i fun t => { t with follow := none }).followScreen i kind
    else d

/-! ## SET TERMINAL and SET LINE (R124, R140) -/

def Device.putTerminalSettings (d : Device) (i : Nat) (s : TerminalSettings) : Device :=
  { d with work := { d.work with terminals := d.work.terminals.put {} i s } }

/-- The terminal's runtime record takes its initial values (R127). -/
def Device.resetTerminal (d : Device) (i : Nat) : Device := d.modTerminal i fun _ => {}

/-- A change of a configured terminal's record makes it ABSENT (R140). -/
def Terminal.mustRejoin (t : Terminal) (was now : TerminalSettings) : Bool :=
  t.presence ≠ .absent
    && (was.printer ≠ now.printer
      || (was.expected ≠ now.expected && now.expected.isSome && t.joinedSerial ≠ now.expected))

/-- A line that had no configured address begins a cycle, unless a poll is still outstanding (R126). -/
def Device.wakeLine (d : Device) (line : Nat) (hadNone : Bool) : Device :=
  match (d.line line).phase with
  | .silent => d.startCycle line
  | .pausing _ => if hadNone then d.startCycle line else d
  | .polling _ _ => d

/-- An accepted SET TERMINAL (R140); a record that writes the values held changes nothing. -/
def Device.changeTerminal (d : Device) (line address : Nat) (s : TerminalSettings) : Device :=
  let i := terminalIndex line address
  let was := d.terminalSettings i
  let stored := d.putTerminalSettings i s
  match was.configured, s.configured with
  | false, true => (stored.resetTerminal i).wakeLine line (d.nextAddress line 0).isNone
  | true, false => stored.resetTerminal i
  | true, true => if (d.terminal i).mustRejoin was s then stored.resetTerminal i else stored
  | false, false => stored

/-- SET TERMINAL (R140). -/
def setTerminal : List Byte → Device → Device × List Byte :=
  withFields [1, 1, 1, 1, 1, 4] fun vs d =>
    match vs with
    | [line, address, conf, printer, pres, serial] =>
      match boolOf conf, optOf pres serial with
      | some configured, some expected =>
        if line < Config.lines ∧ 1 ≤ address ∧ address ≤ Config.addresses ∧
            printer < Config.printers ∧ expected ≠ some 0 then
          unlessSaving d (answer (d.changeTerminal line address ⟨configured, printer, expected⟩) [])
        else refuse .badField d
      | _, _ => refuse .badField d
    | _ => refuse .badLength d

/-- An accepted SET LINE: a pausing line set to ACTIVE begins the next cycle at once (R124). -/
def Device.changeLine (d : Device) (line : Nat) (s : LineSettings) : Device :=
  let stored := { d with work := { d.work with lines := d.work.lines.put {} line s } }
  if s.quiet then stored else stored.endPause line

/-- SET LINE (R124): mode ACTIVE is 0 and QUIET is 1. -/
def setLine : List Byte → Device → Device × List Byte :=
  withFields [1, 1, 1] fun vs d =>
    match vs with
    | [line, mode, timeout] =>
      if line < Config.lines ∧ mode ≤ 1 ∧ 15 ≤ timeout ∧ timeout ≤ 120 then
        unlessSaving d (answer (d.changeLine line ⟨mode = 1, timeout⟩) [])
      else refuse .badField d
    | _ => refuse .badLength d

/-! ## READ TERMINALS (R141) -/

def lineSettingsBytes (s : LineSettings) : List Byte :=
  [if s.quiet then 1 else 0] ++ toBytes 1 s.idleTimeout

/-- The summary of an address in a LINE reply. -/
def summaryBytes (d : Device) (i : Nat) : List Byte :=
  [boolByte (d.terminalSettings i).configured] ++ toBytes 1 (d.terminalSettings i).printer
    ++ toBytes 1 (d.terminal i).presence.number ++ toBytes 1 (d.terminal i).session.number

def readLine (line : Nat) (d : Device) : Device × List Byte :=
  if line < Config.lines then
    answer d (lineSettingsBytes (d.lineSettings line) ++ [boolByte (d.line line).isPausing]
      ++ toBytes 4 (d.line line).cycles
      ++ (List.range Config.addresses).flatMap fun k => summaryBytes d (line * 32 + k))
  else refuse .badField d

/-- The follow-up kinds WELCOME and JOB LIST. -/
def FollowUp.number : FollowUp → Nat
  | .welcome => 0
  | .jobList _ => 1

/-- The seconds left before the follow-up deadline, at most 3, with its kind, or absent. -/
def followBytes (d : Device) : Option (Time × FollowUp) → List Byte
  | some (t, k) => 1 :: (toBytes 1 (secondsLeft d.uptime t) ++ toBytes 1 k.number)
  | none => 0 :: toBytes 2 0

/-- A terminal's settings and runtime record in a TERMINAL reply. -/
def terminalBytes (d : Device) (i : Nat) : List Byte :=
  let t := d.terminal i
  let s := d.terminalSettings i
  [boolByte s.configured] ++ toBytes 1 s.printer ++ optBytes 4 s.expected
    ++ toBytes 1 t.presence.number
    ++ optBytes 1 (if t.presence = .joining then some t.joinPolls else none)
    ++ optBytes 1 (if t.presence = .present then some (goodCount t.window) else none)
    ++ optBytes 1 (t.lostDeadline.map (secondsLeft d.uptime)) ++ optBytes 4 t.joinedSerial
    ++ optBytes 4 t.refusedSerial ++ [if t.ack then 1 else 0]
    ++ optBytes 1 (t.pending.map fun p => p.screen.number) ++ followBytes d t.follow
    ++ toBytes 1 t.session.number ++ optBytes 2 t.session.account ++ optBytes 1 t.session.page
    ++ optBytes 1 (t.session.idle.map (secondsLeft d.uptime))

def readTerminal (line address : Nat) (d : Device) : Device × List Byte :=
  if line < Config.lines ∧ 1 ≤ address ∧ address ≤ Config.addresses then
    answer d (terminalBytes d (terminalIndex line address))
  else refuse .badField d

/-- READ TERMINALS (R141): selector LINE or TERMINAL. -/
def readTerminals (body : List Byte) (d : Device) : Device × List Byte :=
  match body with
  | [] => refuse .badLength d
  | sel :: rest =>
    match sel.toNat with
    | 0 => withFields [1] (fun vs d => readLine (vs.headD 0) d) rest d
    | 1 => withFields [1, 1] (fun vs d => readTerminal (vs.headD 0) (vs.getD 1 0) d) rest d
    | _ => refuse .badField d

end Sys2Proof.Machine
end

