-- ==== Sys2Proof/Machine/Accounts.lean ====
section
/-! DEFINITION. The requests of the account table and the credential map (spec 04), and the end of a
lockout. The badge lookup and the PIN check are in Machine/Terminals.lean. -/

namespace Sys2Proof.Machine

/-! ## Shared by tenants and accounts -/

/-- The tickets of the owners that meet a test, with their slots. -/
def Device.ticketsWhere (d : Device) (test : Nat → Bool) : List (Nat × Ticket) :=
  d.ticketList.filter fun e => test e.2.owner

/-- How many of those are QUEUED or PRINTING (R67, R69). -/
def Device.inFlightCount (d : Device) (test : Nat → Bool) : Nat :=
  (d.ticketsWhere test).countP fun e => e.2.inFlight

/-- Removes the HELD tickets of the owners that meet a test, with reason DEACTIVATED (R67, R69, R103). -/
def Device.removeHeld (d : Device) (test : Nat → Bool) : Device :=
  ((d.ticketsWhere test).filter fun e => !e.2.inFlight).foldl
    (fun d e => d.departListed e.1 e.2 .deactivated none) d

/-- Ends the sessions of the accounts that were usable and no longer are (R64). -/
def Device.endUnusable (before now : Device) : Device :=
  now.endSessions (fun a => before.usable a && !now.usable a) .notUsable

/-! ## SET TENANT (R66, R67) -/

def Device.putTenantSettings (d : Device) (n : Nat) (s : TenantSettings) : Device :=
  { d with work := { d.work with tenants := d.work.tenants.put {} n s } }

/-- The account belongs to the tenant. -/
def Device.belongsTo (d : Device) (tenant account : Nat) : Bool := (d.accountSettings account).tenant = tenant

/-- The request deactivates the tenant. -/
def Device.deactivatesTenant (d : Device) (n : Nat) (s : TenantSettings) : Bool :=
  (d.tenantSettings n).active && !s.active

/-- An accepted SET TENANT (R66, R67). -/
def Device.changeTenant (d : Device) (n : Nat) (s : TenantSettings) : Device :=
  if d.deactivatesTenant n s then
    Device.endUnusable d ((d.putTenantSettings n s).removeHeld (d.belongsTo n))
  else d.putTenantSettings n s

/-- SET TENANT with its fields in range: a deactivation is refused while the tenant's people have tickets
in flight, and the reply carries their number (R67). -/
def setTenantTaken (n : Nat) (s : TenantSettings) (d : Device) : Device × List Byte :=
  if d.deactivatesTenant n s && 0 < d.inFlightCount (d.belongsTo n) then
    (d, Status.state.byte :: toBytes 2 (d.inFlightCount (d.belongsTo n)))
  else answer (d.changeTenant n s) []

/-- SET TENANT (R66). -/
def setTenant : List Byte → Device → Device × List Byte :=
  withFields [1, 1, 4, 1, 1] fun vs d =>
    match vs with
    | [n, act, allowance, col, hold] =>
      match boolOf act, boolOf col with
      | some active, some colour =>
        if n < Config.tenants ∧ 1 ≤ hold ∧ hold ≤ 72 then
          unlessSaving d (setTenantTaken n ⟨active, allowance, colour, hold⟩ d)
        else refuse .badField d
      | _, _ => refuse .badField d
    | _ => refuse .badLength d

/-! ## SET ACCOUNT (R68, R69) -/

def Device.putAccountSettings (d : Device) (n : Nat) (s : AccountSettings) : Device :=
  { d with work := { d.work with accounts := d.work.accounts.put {} n s } }

/-- The request deactivates the account. -/
def Device.deactivatesAccount (d : Device) (n : Nat) (s : AccountSettings) : Bool :=
  (d.accountSettings n).active && !s.active

/-- The request changes the tenant or deactivates the account (R69). -/
def Device.movesAccount (d : Device) (n : Nat) (s : AccountSettings) : Bool :=
  (d.accountSettings n).tenant ≠ s.tenant || d.deactivatesAccount n s

/-- The request would clear PIN_REQUIRED while a digest is held (R68). -/
def Device.clearsPin (d : Device) (n : Nat) (s : AccountSettings) : Bool :=
  (d.accountSettings n).pinRequired && !s.pinRequired && (d.credentials n).digest.isSome

/-- An accepted SET ACCOUNT (R68, R69). -/
def Device.changeAccount (d : Device) (n : Nat) (s : AccountSettings) : Device :=
  let stored := d.putAccountSettings n s
  let removed := if d.deactivatesAccount n s then stored.removeHeld (· = n) else stored
  Device.endUnusable d removed

/-- SET ACCOUNT with its fields in range (R68, R69). DESIGN CHOICE (log entry 40): the refusal of R68 comes before
that of R69. -/
def setAccountTaken (n : Nat) (s : AccountSettings) (d : Device) : Device × List Byte :=
  if d.clearsPin n s then refuse .state d
  else if d.movesAccount n s && 0 < d.inFlightCount (· = n) then
    (d, Status.state.byte :: toBytes 1 (d.inFlightCount (· = n)))
  else answer (d.changeAccount n s) []

/-- SET ACCOUNT (R68). -/
def setAccount : List Byte → Device → Device × List Byte :=
  withFields [2, 1, 1, 1, 4, 1, 1, 1] fun vs d =>
    match vs with
    | [n, act, tenant, rl, allowance, col, pin, held] =>
      match boolOf act, Role.ofNumber rl, boolOf col, boolOf pin with
      | some active, some role, some colour, some pinRequired =>
        if n < Config.accounts ∧ tenant < Config.tenants ∧ 1 ≤ held ∧ held ≤ 64 then
          unlessSaving d
            (setAccountTaken n ⟨active, tenant, role, allowance, colour, pinRequired, held⟩ d)
        else refuse .badField d
      | _, _, _, _ => refuse .badField d
    | _ => refuse .badLength d

/-! ## The credential map (R71, R72) -/

/-- The entries of the credential map, in the order R71 lists them. -/
inductive CredentialEntry where
  | token1 | token2 | pin
  deriving DecidableEq, Repr

def Device.putCredentials (d : Device) (n : Nat) (c : Credentials) : Device :=
  { d with work := { d.work with credentials := d.work.credentials.put {} n c } }

/-- The token is bound to some token entry other than the given one (R71 check 5). -/
def Device.boundElsewhere (d : Device) (n : Nat) (e : CredentialEntry) (token : BitVec 64) : Bool :=
  d.work.credentials.entries.any fun x =>
    (x.2.token1 = some token && !(x.1 = n && e = .token1))
      || (x.2.token2 = some token && !(x.1 = n && e = .token2))

/-- The entries with one of them written. -/
def Credentials.write (c : Credentials) (value : Nat) : CredentialEntry → Credentials
  | .token1 => { c with token1 := some (BitVec.ofNat 64 value) }
  | .token2 => { c with token2 := some (BitVec.ofNat 64 value) }
  | .pin => { c with digest := some (BitVec.ofNat 32 value) }

/-- Checks 4 and 5 of R71, and the write. -/
def Device.writeCredential (d : Device) (n : Nat) (e : CredentialEntry) (value : Nat) :
    Device × List Byte :=
  if e = .pin && !(d.accountSettings n).pinRequired then refuse .state d
  else if e ≠ .pin && d.boundElsewhere n e (BitVec.ofNat 64 value) then refuse .duplicate d
  else answer (d.putCredentials n ((d.credentials n).write value e)) []

/-- SET CREDENTIAL of one entry, in the order of checks of R71. -/
def setEntry (e : CredentialEntry) (n value : Nat) (d : Device) : Device × List Byte :=
  if Config.accounts ≤ n then refuse .badField d
  else if e ≠ .pin && value = 0 then refuse .badField d
  else
    unlessSaving d
      (if d.work.guard.frozen then refuse .locked d else d.writeCredential n e value)

/-- SET CREDENTIAL (R71): the value has 8 bytes for a token and 4 for a digest. -/
def setCredential (body : List Byte) (d : Device) : Device × List Byte :=
  match takeFields [2, 1] body with
  | some ([n, sel], rest) =>
    match sel with
    | 0 => withFields [8] (fun vs d => setEntry .token1 n (vs.headD 0) d) rest d
    | 1 => withFields [8] (fun vs d => setEntry .token2 n (vs.headD 0) d) rest d
    | 2 => withFields [4] (fun vs d => setEntry .pin n (vs.headD 0) d) rest d
    | _ => refuse .badField d
  | _ => refuse .badLength d

/-- The entries left by an ERASE CREDENTIAL with a selector TOKEN 1, TOKEN 2, PIN or ALL (R72). -/
def Credentials.erase (c : Credentials) : Nat → Option Credentials
  | 0 => some { c with token1 := none }
  | 1 => some { c with token2 := none }
  | 2 => some { c with digest := none }
  | 3 => some {}
  | _ => none

/-- ERASE CREDENTIAL (R72). -/
def eraseCredential : List Byte → Device → Device × List Byte :=
  withFields [2, 1] fun vs d =>
    let n := vs.headD 0
    match (d.credentials n).erase (vs.getD 1 0) with
    | none => refuse .badField d
    | some c =>
      if Config.accounts ≤ n then refuse .badField d
      else
        unlessSaving d
          (if d.work.guard.frozen then refuse .locked d else answer (d.putCredentials n c) [])

/-! ## The guard (R73) -/

/-- SET GUARD, when the guard latch is clear (R73): setting OPEN is 0 and FROZEN is 1; a yes is 0. -/
def setGuardOpen : List Byte → Device → Device × List Byte :=
  withFields [1, 1, 1, 1] fun vs d =>
    match vs with
    | [setting, limit, minutes, latch] =>
      match boolOf latch with
      | none => refuse .badField d
      | some lt =>
        if setting ≤ 1 ∧ 1 ≤ limit ∧ limit ≤ 15 ∧ 1 ≤ minutes ∧ minutes ≤ 240 then
          unlessSaving d
            (answer { d with
                work := { d.work with guard := ⟨setting = 1, limit, minutes⟩ }
                guardLatch := d.guardLatch || lt } [])
        else refuse .badField d
    | _ => refuse .badLength d

/-- SET GUARD (R73). A body of the wrong length is answered BAD_LENGTH whatever the latch says (R174). -/
def setGuard (body : List Byte) (d : Device) : Device × List Byte :=
  if body.length = 4 && d.guardLatch then refuse .locked d else setGuardOpen body d

/-! ## Lockouts, periods, adjustments (R75 to R77) -/

/-- A lockout ends (R75). -/
def AccountTotals.unlock (a : AccountTotals) : AccountTotals := { a with lockedUntil := none, failures := 0 }

/-- UNLOCK ACCOUNT (R75). -/
def unlockAccount : List Byte → Device → Device × List Byte :=
  withFields [2] fun vs d =>
    if Config.accounts ≤ vs.headD 0 then refuse .badField d
    else answer (d.modAccount (vs.headD 0) AccountTotals.unlock) []

/-- LOCKOUT_EXPIRY (R75). -/
def Device.lockoutExpiry (d : Device) (account : Nat) : Device :=
  if (d.accountTotals account).lockedUntil.any (passed d.uptime) then
    d.modAccount account AccountTotals.unlock
  else d

/-- Every used total becomes 0 and the period number rises by 1 (R76). -/
def Device.closePeriod (d : Device) : Device :=
  { d with
    tenants := d.tenants.mapAll {} fun t => { t with used := 0 }
    accounts := d.accounts.mapAll {} fun a => { a with used := 0 }
    period := d.period + 1 }

/-- CLOSE PERIOD (R76). -/
def closePeriod : List Byte → Device → Device × List Byte :=
  withFields [2] fun vs d =>
    if vs.headD 0 = d.period.toNat then
      answer d.closePeriod (toBytes 2 (d.period + 1).toNat
        ++ (List.range Config.tenants).flatMap fun n => toBytes 4 (d.tenantTotals n).used)
    else (d, Status.state.byte :: toBytes 2 d.period.toNat)

/-- A used total adjusted by a signed delta, clamped (R77). -/
def adjustUsed (used : Nat) (delta : Int) : Nat := min Config.max32 ((used : Int) + delta).toNat

/-- The adjustment of an account's used and of its tenant's (R77). -/
def Device.adjustUsage (d : Device) (n : Nat) (delta : Int) : Device :=
  (d.modAccount n fun a => { a with used := adjustUsed a.used delta }).modTenant
    (d.accountSettings n).tenant fun t => { t with used := adjustUsed t.used delta }

/-- ADJUST USAGE (R77). -/
def adjustUsage : List Byte → Device → Device × List Byte :=
  withFields [2, 4] fun vs d =>
    let n := vs.headD 0
    let now := d.adjustUsage n (signedOf 4 (vs.getD 1 0))
    if Config.accounts ≤ n then refuse .badField d
    else
      answer now (toBytes 4 (now.accountTotals n).used
        ++ toBytes 4 (now.tenantTotals (d.accountSettings n).tenant).used)

/-! ## READ ACCOUNT and READ TENANT (R78) -/

def accountSettingsBytes (s : AccountSettings) : List Byte :=
  [boolByte s.active] ++ toBytes 1 s.tenant ++ toBytes 1 s.role.number ++ toBytes 4 s.allowance
    ++ [boolByte s.colour, boolByte s.pinRequired] ++ toBytes 1 s.heldLimit

/-- READ ACCOUNT (R78). -/
def readAccount : List Byte → Device → Device × List Byte :=
  withFields [2] fun vs d =>
    let n := vs.headD 0
    let a := d.accountTotals n
    let c := d.credentials n
    if Config.accounts ≤ n then refuse .badField d
    else
      answer d (accountSettingsBytes (d.accountSettings n) ++ toBytes 4 a.used ++ toBytes 4 a.reserved
        ++ toBytes 1 a.held ++ toBytes 1 a.failures
        ++ optBytes 2 (a.lockedUntil.map (secondsLeft d.uptime)) ++ [boolByte (d.usable n)]
        ++ budgetBytes (d.accountRemaining n) ++ toBytes 1 (d.inFlightCount (· = n))
        ++ [boolByte c.token1.isSome, boolByte c.token2.isSome, boolByte c.digest.isSome]
        ++ toBytes 2 d.period.toNat)

def tenantSettingsBytes (s : TenantSettings) : List Byte :=
  [boolByte s.active] ++ toBytes 4 s.allowance ++ [boolByte s.colour] ++ toBytes 1 s.holdHours

/-- The accounts that belong to a tenant. -/
def Device.accountsOf (d : Device) (tenant : Nat) : List Nat :=
  (List.range Config.accounts).filter (d.belongsTo tenant)

/-- READ TENANT (R78). -/
def readTenant : List Byte → Device → Device × List Byte :=
  withFields [1] fun vs d =>
    let n := vs.headD 0
    let t := d.tenantTotals n
    if Config.tenants ≤ n then refuse .badField d
    else
      answer d (tenantSettingsBytes (d.tenantSettings n) ++ toBytes 4 t.used ++ toBytes 4 t.reserved
        ++ budgetBytes (d.tenantRemaining n) ++ toBytes 2 (d.accountsOf n).length
        ++ toBytes 2 ((d.accountsOf n).countP fun a => (d.accountSettings a).active)
        ++ toBytes 2 d.period.toNat)

end Sys2Proof.Machine
end

