-- ==== Sys2Proof/Machine/Attention.lean ====
section
/-! DEFINITION. The requests of the attention unit (spec 10): READ ATTENTION, ACK ATTENTION and SET ATTENTION
ENABLES. Raising a flag is in Machine/Flags.lean. -/

namespace Sys2Proof.Machine

/-! ## READ ATTENTION (R183) -/

/-- The stamp of a flag instance as a field that is absent while it is clear. -/
def stampBytes (s : Option (BitVec 32)) : List Byte := optBytes 4 (s.map (·.toNat))

/-- The number of set instances of a group. -/
def Device.setCount (d : Device) (g : FlagGroup) : Nat := d.setFlags.countP fun e => e.1.group = g

def deviceFlagBytes (d : Device) (f : Flag) : List Byte :=
  [boolByte (d.stamp f 0).isSome] ++ stampBytes (d.stamp f 0) ++ [boolByte (d.causeHolds f 0)]

/-- The bytes that hold the number of a group's set instances: two for the indexed groups, whose flags have 128
instances each, and one for the others (R176, R183). -/
def countWidth (g : FlagGroup) : Nat := if g = .printer || g = .terminal then 2 else 1

/-- READ ATTENTION with SUMMARY; the level of ATTN is 0 for low and 1 for high (log entry 35). DESIGN CHOICE (log
entry 58): groups and device-wide flags in the order of R179's table. -/
def readSummary (d : Device) : Device × List Byte :=
  answer d (toBytes 4 d.attention.counter.toNat ++ [if d.attnLow then 0 else 1]
    ++ [boolByte d.work.enables.global]
    ++ FlagGroup.all.flatMap (fun g => boolByte (d.groupEnabled g) :: toBytes (countWidth g) (d.setCount g))
    ++ (Flag.all.filter fun f => !f.indexed).flatMap (deviceFlagBytes d))

/-- The set flags of an indexed group at an index. DESIGN CHOICE (log entry 58): in the order of R179's table. -/
def Device.setAt (d : Device) (g : FlagGroup) (i : Nat) : List Flag :=
  Flag.all.filter fun f => f.group = g && (d.stamp f i).isSome

def setFlagBytes (d : Device) (i : Nat) (f : Flag) : List Byte :=
  toBytes 1 f.number ++ toBytes 4 ((d.stamp f i).getD 0).toNat ++ [boolByte (d.causeHolds f i)]

/-- The indices from a start on with a set instance of the group. -/
def Device.setIndices (d : Device) (g : FlagGroup) (start : Nat) : List Nat :=
  (List.range 128).filter fun i => start ≤ i && !(d.setAt g i).isEmpty

/-- READ ATTENTION with GROUP: up to 32 indices, and the next one to read on from. -/
def readGroup (g : FlagGroup) (start : Nat) (d : Device) : Device × List Byte :=
  answer d (listBytes (((d.setIndices g start).take 32).map fun i =>
      toBytes 1 i ++ listBytes ((d.setAt g i).map (setFlagBytes d i)))
    ++ optBytes 1 (d.setIndices g start)[32]?)

/-- All 34 enables: global, groups, flags (R183). DESIGN CHOICE (log entry 58): groups and flags in the order of
R179's table. -/
def enablesBytes (d : Device) : List Byte :=
  [boolByte d.work.enables.global] ++ FlagGroup.all.map (fun g => boolByte (d.groupEnabled g))
    ++ Flag.all.map fun f => boolByte (d.enabled f)

/-- The groups that READ ATTENTION with GROUP takes. -/
def indexedGroup (n : Nat) : Option FlagGroup :=
  (FlagGroup.ofNumber n).filter fun g => g = .printer || g = .terminal

/-- READ ATTENTION (R183): selector SUMMARY, GROUP or ENABLES. -/
def readAttention (body : List Byte) (d : Device) : Device × List Byte :=
  match body with
  | [] => refuse .badLength d
  | sel :: rest =>
    match sel.toNat with
    | 0 => withFields [] (fun _ d => readSummary d) rest d
    | 1 =>
      withFields [1, 1] (fun vs d =>
        match indexedGroup (vs.headD 0) with
        | some g => if vs.getD 1 0 < 128 then readGroup g (vs.getD 1 0) d else refuse .badField d
        | none => refuse .badField d) rest d
    | 2 => withFields [] (fun _ d => answer d (enablesBytes d)) rest d
    | _ => refuse .badField d

/-! ## ACK ATTENTION (R180) -/

/-- An item of an ACK ATTENTION (log entry 26). -/
inductive AckItem where
  | one (f : Flag) (index : Nat)
  | every (f : Flag)
  | group (g : FlagGroup)
  deriving DecidableEq, Repr

/-- The item that form, number and index make; none for an unknown flag, group or form, an index above
127, or an index given for a device-wide flag. -/
def ackItemOf (form number index : Nat) : Option AckItem :=
  match form with
  | 0 =>
    match Flag.ofNumber number with
    | some f => if f.indexed && index < 128 then some (.one f index) else none
    | none => none
  | 1 => (Flag.ofNumber number).map .every
  | 2 => (FlagGroup.ofNumber number).map .group
  | _ => none

/-- The items that a run of three-byte items spells. -/
def ackItemsOf : List Byte → Option (List AckItem)
  | [] => some []
  | a :: b :: c :: rest =>
    match ackItemOf a.toNat b.toNat c.toNat, ackItemsOf rest with
    | some item, some items => some (item :: items)
    | _, _ => none
  | _ => none

/-- The item names the flag instance. -/
def AckItem.names (f : Flag) (index : Nat) : AckItem → Bool
  | .one g i => g = f && i = index
  | .every g => g = f
  | .group g => f.group = g

/-- Why an instance stayed set (R180). -/
inductive StayReason where
  | lastingCause | laterRaise
  deriving DecidableEq, Repr

def StayReason.number : StayReason → Nat
  | .lastingCause => 0
  | .laterRaise => 1

/-- The stamp lies after the seen value (R180). -/
def raisedAfter (stamp : BitVec 32) : Option (BitVec 32) → Bool
  | none => false
  | some seen => 1 ≤ (stamp - seen).toNat && (stamp - seen).toNat ≤ 2147483647

/-- Judges a named set instance: the reason it stays set, or none when it is cleared (R180). -/
def Device.judge (d : Device) (seen : Option (BitVec 32)) (e : Flag × Nat × BitVec 32) :
    Option StayReason :=
  if raisedAfter e.2.2 seen then some .laterRaise
  else if d.causeHolds e.1 e.2.1 then some .lastingCause
  else none

/-- The set instances that the items name, each once. -/
def Device.named (d : Device) (items : List AckItem) : List (Flag × Nat × BitVec 32) :=
  d.setFlags.filter fun e => items.any (AckItem.names e.1 e.2.1)

/-- The named instances that stay set, with the reason. DESIGN CHOICE (log entry 53): in the order of R179, a flag's
instances by rising index. -/
def Device.staying (d : Device) (items : List AckItem) (seen : Option (BitVec 32)) :
    List (Flag × Nat × StayReason) :=
  (d.named items).filterMap fun e => (d.judge seen e).map fun r => (e.1, e.2.1, r)

/-- Clears the named instances that do not stay set. -/
def Device.acknowledge (d : Device) (items : List AckItem) (seen : Option (BitVec 32)) : Device :=
  ((d.named items).filter fun e => (d.judge seen e).isNone).foldl
    (fun d e => d.clearFlag e.1 e.2.1) d

def stayBytes (e : Flag × Nat × StayReason) : List Byte :=
  toBytes 1 e.1.number ++ optBytes 1 (if e.1.indexed then some e.2.1 else none)
    ++ toBytes 1 e.2.2.number

/-- ACK ATTENTION with its fields in range (R180). -/
def ackTaken (items : List AckItem) (seen : Option (BitVec 32)) (d : Device) : Device × List Byte :=
  if (d.staying items seen).isEmpty then answer (d.acknowledge items seen) []
  else
    (d.acknowledge items seen,
      Status.stillActive.byte :: listBytes ((d.staying items seen).map stayBytes))

/-- The item bytes and the seen value's presence byte and number; none for a length that does not fit the
count, or a count of 0 or above 16 (R180). -/
def ackBody (body : List Byte) : Option (List Byte × Nat × Nat) :=
  match body with
  | [] => none
  | n :: rest =>
    if n.toNat = 0 ∨ 16 < n.toNat ∨ rest.length ≠ 3 * n.toNat + 5 then none
    else
      match fields [1, 4] (rest.drop (3 * n.toNat)) with
      | some [pres, seen] => some (rest.take (3 * n.toNat), pres, seen)
      | _ => none

/-- ACK ATTENTION (R180). -/
def ackAttention (body : List Byte) (d : Device) : Device × List Byte :=
  match ackBody body with
  | none => refuse .badLength d
  | some (items, pres, seen) =>
    match ackItemsOf items, optOf pres seen with
    | some its, some sv => ackTaken its (sv.map (BitVec.ofNat 32)) d
    | _, _ => refuse .badField d

/-! ## SET ATTENTION ENABLES (R181) -/

/-- A table of enables from their values in order of number, held with the default true. -/
def enableTable (vs : List Bool) : Table Bool :=
  (List.range vs.length).foldl (fun t n => t.put true n (vs.getD n true)) Table.empty

/-- The 34 enables of a body: global, groups, flags (R181); none for a byte other than set and clear. DESIGN
CHOICE (log entry 58): the seven groups and the 26 flags stand in the order of R179's table. -/
def enablesOf (vs : List Nat) : Option Enables :=
  match vs.mapM boolOf with
  | some (g :: rest) =>
    some { global := g, groups := enableTable (rest.take 7), flags := enableTable (rest.drop 7) }
  | _ => none

/-- Clears every instance of a flag. -/
def Device.clearInstances (d : Device) (f : Flag) : Device :=
  f.indices.foldl (fun d i => d.clearFlag f i) d

/-- What a change of a flag's individual enable does (R181). -/
def Device.enableChanged (old : Device) (d : Device) (f : Flag) : Device :=
  match old.enabled f, d.enabled f with
  | true, false => d.clearInstances f
  | false, true => d.raiseCauses f
  | true, true | false, false => d

/-- The enables written, each change acting in the order of the flags (R181). -/
def Device.changeEnables (d : Device) (e : Enables) : Device :=
  Flag.all.foldl (Device.enableChanged d) { d with work := { d.work with enables := e } }

/-- SET ATTENTION ENABLES (R181). -/
def setAttentionEnables : List Byte → Device → Device × List Byte :=
  withFields (List.replicate 34 1) fun vs d =>
    match enablesOf vs with
    | none => refuse .badField d
    | some e => unlessSaving d (answer (d.changeEnables e) [])

end Sys2Proof.Machine
end

