-- ==== Sys2Proof/Machine/Start.lean ====
section
/-! DEFINITION. Retained state, the settings store and the start (spec 11), with what each chapter says its
records do at a start. -/

namespace Sys2Proof.Machine

/-! ## The clocks (R186, R187) -/

/-- SET TIME (R187). -/
def setTime : List Byte → Device → Device × List Byte :=
  withFields [4] fun vs d =>
    answer (Device.freshRollover { d with wall := BitVec.ofNat 32 (vs.headD 0), wallValid := true }) []

/-- READ TIME (R187). -/
def readTime : List Byte → Device → Device × List Byte :=
  withFields [] fun _ d =>
    answer d (toBytes 4 d.uptime.toNat ++ toBytes 4 d.wall.toNat ++ [boolByte d.wallValid]
      ++ toBytes 1 d.start.cause.number ++ [boolByte d.start.retainedLoss, boolByte d.start.imageInvalid]
      ++ [if d.saving then 1 else 0] ++ toBytes 1 d.store.lastSave.number)

/-- One second passes: both clocks count, on battery too (R186, log entries 2 and 21). -/
def Device.tick (d : Device) : Device := { d with uptime := d.uptime + 1, wall := d.wall + 1 }

/-! ## The settings store (R188, R189) -/

/-- COMMIT SETTINGS (R189): a save of the working copy as it stands begins. -/
def commitSettings : List Byte → Device → Device × List Byte :=
  withFields [] fun _ d =>
    unlessSaving d (answer { d with store := { d.store with saving := some d.work } } [])

/-- The store when a save ends (R189). -/
def Store.ended (saved : Settings) (equal : Bool) : Store where
  image := saved
  checksumGood := equal
  saving := none
  lastSave := if equal then .saved else .failed

/-- SAVE_END (R189). -/
def Device.saveEnd (d : Device) (equal : Bool) : Device :=
  match d.store.saving with
  | none => d
  | some saved =>
    { d with store := Store.ended saved equal }.raise
      (if equal then .settingsSaved else .storeFailed)

/-- A save that main power loss or RSTN low ends without an outcome: the stored image is invalid (R189). -/
def Store.interrupt (s : Store) : Store :=
  if s.saving.isSome then { s with saving := none, checksumGood := false } else s

/-! ## Stages 1 and 2 (R185, R188) -/

/-- Every retained record at its retained-loss value; the pins, the comparator record and the store are
not retained records (R185). -/
def Device.loseRetained (d : Device) : Device where
  mainPower := d.mainPower
  rstnLow := d.rstnLow
  comparator := d.comparator
  store := d.store

/-- Stage 1: the marker and the comparator record are read, the guard latch is cleared (R73, R185). -/
def Device.checkRetained (d : Device) : Device :=
  { (if d.markerValid then d else d.loseRetained) with
    markerValid := true
    comparator := false
    guardLatch := false }

/-- Stage 2: the working copy becomes the stored image, or the default image (R188); the store is IDLE with
no outcome (R189). -/
def Device.loadSettings (d : Device) : Device :=
  { d with
    work := if d.store.checksumGood then d.store.image else {}
    store := { d.store with saving := none, lastSave := .none } }

/-! ## Stage 3: reconciliation -/

/-- The slots that the load makes UNCONFIGURED, in rising order (R20). -/
def lostSlots (old now : Device) : List Nat :=
  (List.range Config.printers).filter fun p => old.configured p && !now.configured p

/-- The owner is inactive in the loaded settings (R122). -/
def Device.ownerInactive (d : Device) (account : Nat) : Bool :=
  !(d.accountSettings account).active || !(d.tenantSettings (d.accountSettings account).tenant).active

/-- Step 1 of R122: tickets of inactive owners leave, with their reservations returned. -/
def Device.removeInactive (d : Device) : Device :=
  (d.ticketsWhere d.ownerInactive).foldl
    (fun d e => (d.returnReservation e.2).departListed e.1 e.2 .loadRemoved none) d

/-- Step 2 of R122 at one ticket of a queue. DESIGN CHOICE (log entry 50): the PRINTING ticket alone gets the reprint
mark; a QUEUED one keeps its mark. -/
def Device.releaseFromLost (d : Device) (n : Nat) : Device :=
  match d.ticket n with
  | none => d
  | some t =>
    match t.phase with
    | .held => d
    | .queued _ => d.toHeld n t false
    | .printing a _ _ => d.endFromAccumulators n t a .loadSettled

/-- Step 2 of R122: the queues of the lost slots empty. -/
def Device.emptyLost (d : Device) (lost : List Nat) : Device :=
  lost.foldl (fun d p => (d.queue p).foldl Device.releaseFromLost d) d

/-- The slot by which a ticket targets a lost printer. -/
def Ticket.targetsLost (lost : List Nat) (t : Ticket) : Bool :=
  match t.target with
  | .printer p => lost.contains p
  | .group _ => false

/-- Step 3 of R122 at one ticket that targets a lost slot. -/
def Device.retargetLost (d : Device) (e : Nat × Ticket) : Device :=
  match e.2.phase.admitted with
  | none => d.departListed e.1 e.2 .loadRemoved none
  | some a => d.putTicket e.1 (some { e.2 with target := .group (d.settings a.printer).group })

/-- Step 3 of R122. -/
def Device.retargetAllLost (d : Device) (lost : List Nat) : Device :=
  (d.ticketList.filter fun e => e.2.targetsLost lost).foldl Device.retargetLost d

/-- The reconciliation of the ticket store (R122). -/
def Device.reconcileTickets (d : Device) (lost : List Nat) : Device :=
  (d.removeInactive.emptyLost lost).retargetAllLost lost

/-- The runtime records of one slot after the load (R16, R20, R41, R143). -/
def Device.reconcileSlot (old : Device) (d : Device) (slot : Nat) : Device :=
  match old.configured slot, d.configured slot with
  | true, false => d.modPrinter slot Printer.cleared
  | false, true =>
    d.modPrinter slot fun p => p.fresh (after d.uptime (d.settings slot).reportInterval)
  | true, true =>
    d.modPrinter slot fun p => p.resetChannels (old.settings slot).channels (d.settings slot).channels
  | false, false => d

def Device.reconcilePrinters (old d : Device) : Device :=
  (List.range Config.printers).foldl (Device.reconcileSlot old) d

/-- Adds an account's reserved total to its tenant's. -/
def Device.addReserved (d : Device) (account : Nat) : Device :=
  d.modTenant (d.accountSettings account).tenant fun t =>
    { t with reserved := t.reserved + (d.accountTotals account).reserved }

/-- Recomputes each tenant's reserved total from its accounts (R80). -/
def Device.recomputeReserved (d : Device) : Device :=
  d.accounts.keys.foldl Device.addReserved
    { d with tenants := d.tenants.mapAll {} fun t => { t with reserved := 0 } }

/-- The callout records of the lost slots. -/
def Device.calloutsOfLost (d : Device) (lost : List Nat) : List Nat :=
  (d.calloutList.filter fun e => lost.contains e.2.printer).map Prod.fst

/-- Frees the records of lost slots, takes their pending entries out, then offers the records (R60). -/
def Device.reconcileCallouts (d : Device) (lost : List Nat) : Device :=
  let numbers := d.calloutsOfLost lost
  let left := { d with pendingList := d.pendingList.filter fun e => !lost.contains e.printer }
  numbers.foldl (fun d _ => d.offerCallout) (numbers.foldl (fun d n => d.putCallout n none) left)

/-- The runtime record of a kind after the load (R171). -/
def kindAfterLoad (was now : KindSettings) (k : Kind) : Kind :=
  if !now.configured then {} else if was = now then k else { k with hold := false }

/-- The orders and the runtime record of one kind after the load (R171). DESIGN CHOICE (log entry 47): the freed
records are not offered to the blocked kinds here. -/
def Device.reconcileKind (old : Device) (d : Device) (kind : Nat) : Device :=
  let freed :=
    if (d.kindSettings kind).configured then d
    else (d.ordersOf kind).foldl (fun d e => d.freeOrderRecord e.1) d
  freed.modKind kind (kindAfterLoad (old.kindSettings kind) (d.kindSettings kind))

def Device.reconcileStock (old d : Device) : Device :=
  (List.range Config.stockKinds).foldl (Device.reconcileKind old) d

/-- Stage 3, in the order R190 gives; `old` holds the settings the records were kept under (log
entry 13). -/
def Device.reconcile (old d : Device) : Device :=
  let lost := lostSlots old d
  Device.reconcileStock old
    (((Device.reconcilePrinters old (d.reconcileTickets lost)).recomputeReserved).reconcileCallouts lost)

/-! ## Stage 4: restart of timers -/

/-- The silence and stall timing of a slot restarts (R19). -/
def Printer.restartTiming (p : Printer) (now deadline : Time) : Printer :=
  { p with
    missed := 0
    silenceDeadline := some deadline
    lastAdvance := p.lastAdvance.map fun _ => now }

def Device.restartSlot (d : Device) (slot : Nat) : Device :=
  if d.live slot then
    d.modPrinter slot fun p =>
      p.restartTiming d.uptime (after d.uptime (d.settings slot).reportInterval)
  else d

/-- Each running holdoff restarts with the retry time of its class as loaded (R40). -/
def Device.restartHoldoffs (d : Device) (slot : Nat) : Device :=
  d.modPrinter slot fun p =>
    { p with faults := ByClass.ofFn fun cls =>
        { p.faults.get cls with
          holdoff := (p.faults.get cls).holdoff.map fun _ => after d.uptime (d.policy cls).retryTime } }

/-- The completion deadline of a PRINTING ticket restarts (R121). -/
def Ticket.restartCompletion (deadline : Time) (t : Ticket) : Ticket :=
  match t.phase with
  | .printing a taken _ => { t with phase := .printing a taken deadline }
  | .held | .queued _ => t

def Device.restartCompletions (d : Device) : Device :=
  { d with tickets := d.tickets.mapAll none fun t =>
      t.map (Ticket.restartCompletion (after d.uptime (d.work.completionMinutes * 60))) }

/-- A record whose deadline passed while main power was off escalates once, from now (R59). -/
def Device.escalateAtStart (d : Device) (n : Nat) : Device :=
  match d.callout n with
  | none => d
  | some c =>
    if c.deadline.any (passed d.uptime) then
      (d.putCallout n (some (c.escalated (after d.uptime (d.responseTime c.classes))))).raise .escalated
    else d

/-- The deadlines that passed while main power was off (R59, R79, R121, R171). -/
def Device.takePassed (d : Device) : Device :=
  let expired := d.tickets.keys.foldl Device.ticketExpiry d
  let unlocked := expired.accounts.keys.foldl Device.lockoutExpiry expired
  let escalated := (List.range Config.callouts).foldl Device.escalateAtStart unlocked
  (List.range Config.orders).foldl Device.overdueDeadline escalated

/-- A rollover that fell due is taken once; the instant is set afresh (R156). -/
def Device.rolloverAtStart (d : Device) : Device :=
  (if d.rolloverDue then d.takeRollover else d).freshRollover

/-- Stage 4. -/
def Device.restartTimers (d : Device) : Device :=
  let timed := (List.range Config.printers).foldl
    (fun d p => (d.restartSlot p).restartHoldoffs p) d
  timed.restartCompletions.takePassed.rolloverAtStart

/-! ## Stage 5: derivation -/

/-- The detectors of a slot hand their activity, and its latchings are handed on (R40, R59). DESIGN CHOICE
(log entry 59): CONSUMPTION from the kept fields (R156), which a load that changes a floor does not judge again. -/
def Device.handDetectors (d : Device) (slot : Nat) : Device :=
  ((((((d.hand slot .silence false).hand slot .stall false).hand slot .counterRegress
    false).handServiceDue slot).handConsumption slot).handSupplyEmpty slot).handLatchings slot
      (d.latchedSet slot)

/-- A slot's state is derived; a change acts on its queue, without promotion yet (R19, R121). -/
def Device.deriveAtStart (d : Device) (slot : Nat) : Device :=
  if d.derive slot = (d.printer slot).derived then d else d.changeState slot (d.derive slot)

/-- Each queue is considered, the waiting list first and then in slot order (R121). -/
def Device.considerAll (d : Device) : Device :=
  (d.waiting ++ List.range Config.printers).foldl Device.consider d

/-- Days to empty, the configured kinds, and the low and out causes (R156, R171). -/
def Device.forecastAtStart (d : Device) : Device :=
  let days := (List.range Config.printers).foldl
    (fun d p => if d.configured p then d.redays p else d) d
  let kinds := (List.range Config.stockKinds).foldl
    (fun d k => if (d.kindSettings k).configured then d.evaluate k else d) days
  (List.range Config.printers).foldl (fun d p => if d.live p then d.evaluateSupplyFlags p else d) kinds

/-- Stage 5. -/
def Device.deriveAll (d : Device) : Device :=
  let handed := (List.range Config.printers).foldl Device.handDetectors d
  let derived := (List.range Config.printers).foldl Device.deriveAtStart handed
  derived.considerAll.forecastAtStart

/-! ## Stages 6 and 7 -/

/-- Raises a flag where a condition was found. -/
def Device.raiseIf (d : Device) (found : Bool) (f : Flag) : Device := if found then d.raise f else d

/-- The flags raised after CLOCK_INVALID at stage 6: those with another lasting cause, in the order of
R179. -/
def startCauses : List Flag := Flag.all.filter fun f => f.lasting && f ≠ .clockInvalid

/-- Stage 6 (R184, R190). -/
def Device.restartAttention (d : Device) (loss battery invalid : Bool) : Device :=
  let found := ((((({ d with attention := {} }.raise .started).raiseIf loss .retainedLost).raiseIf battery
    .batteryLow).raiseIf invalid .storeInvalid).raiseIf (!d.wallValid) .clockInvalid)
  startCauses.foldl Device.raiseCauses found

/-- Stage 7 at the floor lines: every terminal is ABSENT and every line begins its first cycle (R142). -/
def Device.restartLines (d : Device) : Device :=
  (List.range Config.lines).foldl Device.startCycle { d with terminals := ⟨[]⟩, lines := ⟨[]⟩ }

/-- Stages 2 to 7. `loss` and `battery` are what stage 1 found. -/
def Device.startFrom (d : Device) (cause : StartCause) (loss battery : Bool) : Device :=
  let invalid := !d.store.checksumGood
  let started := (Device.reconcile d d.loadSettings).restartTimers.deriveAll
  { started.restartAttention loss battery invalid with
    start := ⟨cause, loss, invalid⟩ }.restartLines

/-- A start at main power-on or at release of RSTN: stages 1 to 7 (R190). -/
def Device.startUp (d : Device) (cause : StartCause) : Device :=
  d.checkRetained.startFrom cause (!d.markerValid) d.comparator

/-! ## Commands of power, reset and battery (R182, R185, R189 to R191) -/

/-- The host link at a start (R184). The reply of a soft reset stays in the reply buffer (log entry 17). -/
def Link.restarted (reply : Option Frame) : Link := { reply := reply }

/-- MAIN_POWER_ON: the part starts, unless RSTN holds it before stage 1 (R190). -/
def mainPowerOn (s : State) : State :=
  if s.device.mainPower then s
  else if s.device.rstnLow then { s with device := { s.device with mainPower := true } }
  else
    { s with
      link := Link.restarted none
      device := { s.device with mainPower := true }.startUp .mainPower }

/-- EXTERNAL_RESET: the release of RSTN starts a part that has main power (R190). -/
def externalReset (s : State) : State :=
  if !s.device.rstnLow then s
  else if !s.device.mainPower then { s with device := { s.device with rstnLow := false } }
  else
    { s with
      link := Link.restarted none
      device := { s.device with rstnLow := false }.startUp .externalReset }

/-- EXTERNAL_RESET_ASSERT: RSTN goes low (R189, R190). -/
def externalResetAssert (s : State) : State :=
  { s with device := { s.device with rstnLow := true, store := s.device.store.interrupt } }

/-- MAIN_POWER_LOSS (R189). -/
def mainPowerLoss (s : State) : State :=
  { s with device := { s.device with mainPower := false, store := s.device.store.interrupt } }

/-- BATTERY_DIP: the comparator watches VBAT while main power is off (R185, log entry 22). -/
def batteryDip (contentsKept : Bool) (s : State) : State :=
  if s.device.mainPower then s
  else
    { s with device := { s.device with
        comparator := true
        markerValid := s.device.markerValid && contentsKept } }

/-- A SOFT RESET that is taken: it is answered, the waiting frames are discarded, and the part starts again
through stages 2 to 7 (R191). -/
def State.softReset (s : State) (f : Frame) : State :=
  { s with
    link := Link.restarted (some ⟨replyKind f.kind, f.tag, [Status.ok.byte]⟩)
    device := s.device.startFrom .softReset false false }

/-- SOFT RESET (R191). -/
def softReset (s : State) : State :=
  match s.link.queue with
  | [] => s
  | f :: rest =>
    if s.device.running && f.kind = 0x09 then
      if f.body ≠ [] then s.served f rest (refuse .badLength s.device)
      else if s.device.saving then s.served f rest (refuse .busy s.device)
      else s.softReset f
    else s

end Sys2Proof.Machine
end

