-- ==== Sys2Proof/Machine/Commands.lean ====
section
/-! DEFINITION. The meaning of each command, one definition for each row of the opcode table, in the table's
order. A command answers a next state always; where what it names is absent, the state is unchanged (log
entry 1). -/

namespace Sys2Proof.Machine

/-- An event inside the part or at the floor lines: nothing happens while the part has not started
(R190). -/
def whenRunning (f : Device → Device) (s : State) : State :=
  if s.device.running then { s with device := f s.device } else s

/-- HOST_FRAME (R173). -/
def execHostFrame (bytes : List RxByte) (s : State) : Host.Outcome State Fault Refusal :=
  .next (receiveBytes bytes s)

/-- FRAME_GAP (R173). -/
def execFrameGap (bytes : List RxByte) (s : State) : Host.Outcome State Fault Refusal :=
  .next (receiveAfterGap bytes s)

/-- UNKNOWN_KIND (R174). -/
def execUnknownKind (s : State) : Host.Outcome State Fault Refusal :=
  .next (serveWhen (fun k => !isRequestKind k) unknownKindReply s)

/-- IDENTIFY (R177). -/
def execIdentify (s : State) : Host.Outcome State Fault Refusal :=
  .next (serve 0x01 (identify s.link) s)

/-- READ_ATTENTION (R183). -/
def execReadAttention (s : State) : Host.Outcome State Fault Refusal :=
  .next (serve 0x02 readAttention s)

/-- ACK_ATTENTION (R180). -/
def execAckAttention (s : State) : Host.Outcome State Fault Refusal :=
  .next (serve 0x03 ackAttention s)

/-- SET_ATTENTION_ENABLES (R181). -/
def execSetAttentionEnables (s : State) : Host.Outcome State Fault Refusal :=
  .next (serve 0x04 setAttentionEnables s)

/-- COMMIT_SETTINGS (R189). -/
def execCommitSettings (s : State) : Host.Outcome State Fault Refusal :=
  .next (serve 0x08 commitSettings s)

/-- SAVE_END (R189). -/
def execSaveEnd (readsBackEqual : Bool) (s : State) : Host.Outcome State Fault Refusal :=
  .next (whenRunning (fun d => d.saveEnd readsBackEqual) s)

/-- SOFT_RESET (R191). -/
def execSoftReset (s : State) : Host.Outcome State Fault Refusal :=
  .next (softReset s)

/-- SET_TIME (R187). -/
def execSetTime (s : State) : Host.Outcome State Fault Refusal :=
  .next (serve 0x0A setTime s)

/-- READ_TIME (R187). -/
def execReadTime (s : State) : Host.Outcome State Fault Refusal :=
  .next (serve 0x0B readTime s)

/-- SET_PRINTER (R14). -/
def execSetPrinter (s : State) : Host.Outcome State Fault Refusal :=
  .next (serve 0x10 setPrinter s)

/-- RETIRE_PRINTER (R17). -/
def execRetirePrinter (s : State) : Host.Outcome State Fault Refusal :=
  .next (serve 0x11 retirePrinter s)

/-- PRINTER_REPORT (R4). -/
def execPrinterReport (s : State) : Host.Outcome State Fault Refusal :=
  .next (serve 0x12 printerReport s)

/-- READ_PRINTER (R18). -/
def execReadPrinter (s : State) : Host.Outcome State Fault Refusal :=
  .next (serve 0x13 readPrinter s)

/-- SILENCE_EXPIRY (R8). -/
def execSilenceExpiry (slot : Nat) (s : State) : Host.Outcome State Fault Refusal :=
  .next (whenRunning (fun d => d.silenceExpiry slot) s)

/-- STALL_EXPIRY (R10). -/
def execStallExpiry (slot : Nat) (s : State) : Host.Outcome State Fault Refusal :=
  .next (whenRunning (fun d => d.stallExpiry slot) s)

/-- HOLDOFF_EXPIRY (R33). -/
def execHoldoffExpiry (slot : Nat) (cls : FaultClass) (s : State) :
    Host.Outcome State Fault Refusal :=
  .next (whenRunning (fun d => d.holdoffExpiry slot cls) s)

/-- SET_CONDITION_MAP (R26). -/
def execSetConditionMap (s : State) : Host.Outcome State Fault Refusal :=
  .next (serve 0x18 setConditionMap s)

/-- SET_FAULT_POLICY (R28). -/
def execSetFaultPolicy (s : State) : Host.Outcome State Fault Refusal :=
  .next (serve 0x19 setFaultPolicy s)

/-- CLEAR_FAULT (R38). -/
def execClearFault (s : State) : Host.Outcome State Fault Refusal :=
  .next (serve 0x1A clearFault s)

/-- READ_FAULTS (R39). -/
def execReadFaults (s : State) : Host.Outcome State Fault Refusal :=
  .next (serve 0x1B readFaults s)

/-- ESCALATION (R51). -/
def execEscalation (record : Nat) (s : State) : Host.Outcome State Fault Refusal :=
  .next (whenRunning (fun d => d.escalation record) s)

/-- READ_CALLOUTS (R58). -/
def execReadCallouts (s : State) : Host.Outcome State Fault Refusal :=
  .next (serve 0x20 readCallouts s)

/-- DISPATCH_CALLOUT (R52). -/
def execDispatchCallout (s : State) : Host.Outcome State Fault Refusal :=
  .next (serve 0x21 dispatchCallout s)

/-- CLOSE_CALLOUT (R57). -/
def execCloseCallout (s : State) : Host.Outcome State Fault Refusal :=
  .next (serve 0x22 closeCallout s)

/-- END_SERVICE (R56). -/
def execEndService (s : State) : Host.Outcome State Fault Refusal :=
  .next (serve 0x23 endService s)

/-- SET_TENANT (R66). -/
def execSetTenant (s : State) : Host.Outcome State Fault Refusal :=
  .next (serve 0x28 setTenant s)

/-- SET_ACCOUNT (R68). -/
def execSetAccount (s : State) : Host.Outcome State Fault Refusal :=
  .next (serve 0x29 setAccount s)

/-- SET_CREDENTIAL (R71). -/
def execSetCredential (s : State) : Host.Outcome State Fault Refusal :=
  .next (serve 0x2A setCredential s)

/-- ERASE_CREDENTIAL (R72). -/
def execEraseCredential (s : State) : Host.Outcome State Fault Refusal :=
  .next (serve 0x2B eraseCredential s)

/-- SET_GUARD (R73). -/
def execSetGuard (s : State) : Host.Outcome State Fault Refusal :=
  .next (serve 0x2C setGuard s)

/-- UNLOCK_ACCOUNT (R75). -/
def execUnlockAccount (s : State) : Host.Outcome State Fault Refusal :=
  .next (serve 0x2D unlockAccount s)

/-- LOCKOUT_EXPIRY (R75). -/
def execLockoutExpiry (account : Nat) (s : State) : Host.Outcome State Fault Refusal :=
  .next (whenRunning (fun d => d.lockoutExpiry account) s)

/-- ADJUST_USAGE (R77). -/
def execAdjustUsage (s : State) : Host.Outcome State Fault Refusal :=
  .next (serve 0x2E adjustUsage s)

/-- CLOSE_PERIOD (R76). -/
def execClosePeriod (s : State) : Host.Outcome State Fault Refusal :=
  .next (serve 0x2F closePeriod s)

/-- READ_ACCOUNT (R78). -/
def execReadAccount (s : State) : Host.Outcome State Fault Refusal :=
  .next (serve 0x30 readAccount s)

/-- READ_TENANT (R78). -/
def execReadTenant (s : State) : Host.Outcome State Fault Refusal :=
  .next (serve 0x31 readTenant s)

/-- SET_CLASS (R82). -/
def execSetClass (s : State) : Host.Outcome State Fault Refusal :=
  .next (serve 0x38 setClass s)

/-- READ_CLASS (R94). -/
def execReadClass (s : State) : Host.Outcome State Fault Refusal :=
  .next (serve 0x39 readClass s)

/-- QUOTE (R93). -/
def execQuote (s : State) : Host.Outcome State Fault Refusal :=
  .next (serve 0x3A quote s)

/-- SUBMIT_JOB (R99). -/
def execSubmitJob (s : State) : Host.Outcome State Fault Refusal :=
  .next (serve 0x40 submitJob s)

/-- CANCEL_JOB (R104). -/
def execCancelJob (s : State) : Host.Outcome State Fault Refusal :=
  .next (serve 0x41 cancelJob s)

/-- TICKET_EXPIRY (R102). -/
def execTicketExpiry (ticket : Nat) (s : State) : Host.Outcome State Fault Refusal :=
  .next (whenRunning (fun d => d.ticketExpiry ticket) s)

/-- TAKE_GRANTS (R116). -/
def execTakeGrants (s : State) : Host.Outcome State Fault Refusal :=
  .next (serve 0x42 takeGrantsRequest s)

/-- JOB_DONE (R117). -/
def execJobDone (s : State) : Host.Outcome State Fault Refusal :=
  .next (serve 0x43 jobDone s)

/-- COMPLETION_DEADLINE (R118). -/
def execCompletionDeadline (ticket : Nat) (s : State) : Host.Outcome State Fault Refusal :=
  .next (whenRunning (fun d => d.completionDeadline ticket) s)

/-- READ_TICKETS (R120). -/
def execReadTickets (s : State) : Host.Outcome State Fault Refusal :=
  .next (serve 0x44 readTickets s)

/-- SET_JOB_LIMITS (R119). -/
def execSetJobLimits (s : State) : Host.Outcome State Fault Refusal :=
  .next (serve 0x45 setJobLimits s)

/-- SET_TERMINAL (R140). -/
def execSetTerminal (s : State) : Host.Outcome State Fault Refusal :=
  .next (serve 0x48 setTerminal s)

/-- SET_LINE (R124). -/
def execSetLine (s : State) : Host.Outcome State Fault Refusal :=
  .next (serve 0x49 setLine s)

/-- READ_TERMINALS (R141). -/
def execReadTerminals (s : State) : Host.Outcome State Fault Refusal :=
  .next (serve 0x4A readTerminals s)

/-- ANSWER_WINDOW_CLOSE (R125). -/
def execAnswerWindowClose (line : Nat) (s : State) : Host.Outcome State Fault Refusal :=
  .next (whenRunning (fun d => d.pollFails line) s)

/-- BAD_ANSWER (R125). -/
def execBadAnswer (line : Nat) (_why : BadAnswer) (s : State) : Host.Outcome State Fault Refusal :=
  .next (whenRunning (fun d => d.pollFails line) s)

/-- QUIET_PAUSE_END (R126). -/
def execQuietPauseEnd (line : Nat) (s : State) : Host.Outcome State Fault Refusal :=
  .next (whenRunning (fun d => d.quietPauseEnd line) s)

/-- IDLE (R125). -/
def execIdle (line : Nat) (s : State) : Host.Outcome State Fault Refusal :=
  .next (whenRunning (fun d => d.pollAnswered line .idle) s)

/-- JOIN_REQUEST (R128). -/
def execJoinRequest (line : Nat) (serial : Nat) (s : State) : Host.Outcome State Fault Refusal :=
  .next (whenRunning (fun d => d.pollAnswered line (.joinRequest serial)) s)

/-- READY (R130). -/
def execReady (line : Nat) (s : State) : Host.Outcome State Fault Refusal :=
  .next (whenRunning (fun d => d.pollAnswered line .ready) s)

/-- RECENTLY_LOST_EXPIRY (R128). -/
def execRecentlyLostExpiry (terminal : Nat) (s : State) : Host.Outcome State Fault Refusal :=
  .next (whenRunning (fun d => d.recentlyLostExpiry terminal) s)

/-- BADGE (R135). -/
def execBadge (line : Nat) (toggle : Bool) (token : BitVec 64) (s : State) :
    Host.Outcome State Fault Refusal :=
  .next (whenRunning (fun d => d.pollAnswered line (.event toggle (.badge token))) s)

/-- PIN (R136). -/
def execPin (line : Nat) (toggle : Bool) (digest : BitVec 32) (s : State) :
    Host.Outcome State Fault Refusal :=
  .next (whenRunning (fun d => d.pollAnswered line (.event toggle (.pin digest))) s)

/-- RELEASE (R107). -/
def execRelease (line : Nat) (toggle : Bool) (n : Nat) (s : State) :
    Host.Outcome State Fault Refusal :=
  .next (whenRunning (fun d => d.pollAnswered line (.event toggle (.key (.release n)))) s)

/-- RELEASE_ALL (R110). -/
def execReleaseAll (line : Nat) (toggle : Bool) (s : State) : Host.Outcome State Fault Refusal :=
  .next (whenRunning (fun d => d.pollAnswered line (.event toggle (.key .releaseAll))) s)

/-- CANCEL (R109). -/
def execCancel (line : Nat) (toggle : Bool) (n : Nat) (s : State) :
    Host.Outcome State Fault Refusal :=
  .next (whenRunning (fun d => d.pollAnswered line (.event toggle (.key (.cancel n)))) s)

/-- NEXT_PAGE (R137). -/
def execNextPage (line : Nat) (toggle : Bool) (s : State) : Host.Outcome State Fault Refusal :=
  .next (whenRunning (fun d => d.pollAnswered line (.event toggle (.key .nextPage))) s)

/-- LOGOUT (R139). -/
def execLogout (line : Nat) (toggle : Bool) (s : State) : Host.Outcome State Fault Refusal :=
  .next (whenRunning (fun d => d.pollAnswered line (.event toggle (.key .logout))) s)

/-- ATTEND (R53). -/
def execAttend (line : Nat) (toggle : Bool) (s : State) : Host.Outcome State Fault Refusal :=
  .next (whenRunning (fun d => d.pollAnswered line (.event toggle (.key .attend))) s)

/-- SERVICE_DONE (R55). -/
def execServiceDone (line : Nat) (toggle : Bool) (s : State) : Host.Outcome State Fault Refusal :=
  .next (whenRunning (fun d => d.pollAnswered line (.event toggle (.key .serviceDone))) s)

/-- UNKNOWN_KEY (R138). -/
def execUnknownKey (line : Nat) (toggle : Bool) (_code : Byte) (s : State) :
    Host.Outcome State Fault Refusal :=
  .next (whenRunning (fun d => d.pollAnswered line (.event toggle (.key .unknown))) s)

/-- IDLE_DEADLINE (R134). -/
def execIdleDeadline (terminal : Nat) (s : State) : Host.Outcome State Fault Refusal :=
  .next (whenRunning (fun d => d.idleDeadline terminal) s)

/-- FOLLOW_UP (R132). -/
def execFollowUp (terminal : Nat) (s : State) : Host.Outcome State Fault Refusal :=
  .next (whenRunning (fun d => d.followUp terminal) s)

/-- SET_FORECAST (R154). -/
def execSetForecast (s : State) : Host.Outcome State Fault Refusal :=
  .next (serve 0x50 setForecast s)

/-- READ_SUPPLIES (R155). -/
def execReadSupplies (s : State) : Host.Outcome State Fault Refusal :=
  .next (serve 0x51 readSupplies s)

/-- DAY_ROLLOVER (R153). -/
def execDayRollover (s : State) : Host.Outcome State Fault Refusal :=
  .next (whenRunning (fun d => d.dayRollover) s)

/-- SET_STOCK_KIND (R159). -/
def execSetStockKind (s : State) : Host.Outcome State Fault Refusal :=
  .next (serve 0x58 setStockKind s)

/-- ADJUST_STOCK (R168). -/
def execAdjustStock (s : State) : Host.Outcome State Fault Refusal :=
  .next (serve 0x59 adjustStock s)

/-- APPROVE_ORDER (R164). -/
def execApproveOrder (s : State) : Host.Outcome State Fault Refusal :=
  .next (serve 0x5A approveOrder s)

/-- DECLINE_ORDER (R165). -/
def execDeclineOrder (s : State) : Host.Outcome State Fault Refusal :=
  .next (serve 0x5B declineOrder s)

/-- CANCEL_ORDER (R166). -/
def execCancelOrder (s : State) : Host.Outcome State Fault Refusal :=
  .next (serve 0x5C cancelOrder s)

/-- RECEIVE_DELIVERY (R167). -/
def execReceiveDelivery (s : State) : Host.Outcome State Fault Refusal :=
  .next (serve 0x5D receiveDelivery s)

/-- OVERDUE_DEADLINE (R169). -/
def execOverdueDeadline (order : Nat) (s : State) : Host.Outcome State Fault Refusal :=
  .next (whenRunning (fun d => d.overdueDeadline order) s)

/-- READ_STOCK (R170). -/
def execReadStock (s : State) : Host.Outcome State Fault Refusal :=
  .next (serve 0x5E readStock s)

/-- READ_ORDERS (R170). -/
def execReadOrders (s : State) : Host.Outcome State Fault Refusal :=
  .next (serve 0x5F readOrders s)

/-- MAIN_POWER_ON (R190). -/
def execMainPowerOn (s : State) : Host.Outcome State Fault Refusal :=
  .next (mainPowerOn s)

/-- EXTERNAL_RESET (R190). -/
def execExternalReset (s : State) : Host.Outcome State Fault Refusal :=
  .next (externalReset s)

/-- EXTERNAL_RESET_ASSERT (R190). -/
def execExternalResetAssert (s : State) : Host.Outcome State Fault Refusal :=
  .next (externalResetAssert s)

/-- MAIN_POWER_LOSS (R189). -/
def execMainPowerLoss (s : State) : Host.Outcome State Fault Refusal :=
  .next (mainPowerLoss s)

/-- BATTERY_DIP (R185). -/
def execBatteryDip (contentsKept : Bool) (s : State) : Host.Outcome State Fault Refusal :=
  .next (batteryDip contentsKept s)

end Sys2Proof.Machine
end

