-- ==== Sys2Proof/Machine/Dispatch.lean ====
section
/-! DEFINITION. The dispatch of the commands: one arm for each constructor of Instr. -/

namespace Sys2Proof.Machine

def exec (i : Instr) (s : State) : Host.Outcome State Fault Refusal :=
  match i with
  | .hostFrame bytes => Sys2Proof.Machine.execHostFrame bytes s
  | .frameGap bytes => Sys2Proof.Machine.execFrameGap bytes s
  | .unknownKind => Sys2Proof.Machine.execUnknownKind s
  | .identify => Sys2Proof.Machine.execIdentify s
  | .readAttention => Sys2Proof.Machine.execReadAttention s
  | .ackAttention => Sys2Proof.Machine.execAckAttention s
  | .setAttentionEnables => Sys2Proof.Machine.execSetAttentionEnables s
  | .commitSettings => Sys2Proof.Machine.execCommitSettings s
  | .saveEnd readsBackEqual => Sys2Proof.Machine.execSaveEnd readsBackEqual s
  | .softReset => Sys2Proof.Machine.execSoftReset s
  | .setTime => Sys2Proof.Machine.execSetTime s
  | .readTime => Sys2Proof.Machine.execReadTime s
  | .setPrinter => Sys2Proof.Machine.execSetPrinter s
  | .retirePrinter => Sys2Proof.Machine.execRetirePrinter s
  | .printerReport => Sys2Proof.Machine.execPrinterReport s
  | .readPrinter => Sys2Proof.Machine.execReadPrinter s
  | .silenceExpiry slot => Sys2Proof.Machine.execSilenceExpiry slot s
  | .stallExpiry slot => Sys2Proof.Machine.execStallExpiry slot s
  | .holdoffExpiry slot cls => Sys2Proof.Machine.execHoldoffExpiry slot cls s
  | .setConditionMap => Sys2Proof.Machine.execSetConditionMap s
  | .setFaultPolicy => Sys2Proof.Machine.execSetFaultPolicy s
  | .clearFault => Sys2Proof.Machine.execClearFault s
  | .readFaults => Sys2Proof.Machine.execReadFaults s
  | .escalation record => Sys2Proof.Machine.execEscalation record s
  | .readCallouts => Sys2Proof.Machine.execReadCallouts s
  | .dispatchCallout => Sys2Proof.Machine.execDispatchCallout s
  | .closeCallout => Sys2Proof.Machine.execCloseCallout s
  | .endService => Sys2Proof.Machine.execEndService s
  | .setTenant => Sys2Proof.Machine.execSetTenant s
  | .setAccount => Sys2Proof.Machine.execSetAccount s
  | .setCredential => Sys2Proof.Machine.execSetCredential s
  | .eraseCredential => Sys2Proof.Machine.execEraseCredential s
  | .setGuard => Sys2Proof.Machine.execSetGuard s
  | .unlockAccount => Sys2Proof.Machine.execUnlockAccount s
  | .lockoutExpiry account => Sys2Proof.Machine.execLockoutExpiry account s
  | .adjustUsage => Sys2Proof.Machine.execAdjustUsage s
  | .closePeriod => Sys2Proof.Machine.execClosePeriod s
  | .readAccount => Sys2Proof.Machine.execReadAccount s
  | .readTenant => Sys2Proof.Machine.execReadTenant s
  | .setClass => Sys2Proof.Machine.execSetClass s
  | .readClass => Sys2Proof.Machine.execReadClass s
  | .quote => Sys2Proof.Machine.execQuote s
  | .submitJob => Sys2Proof.Machine.execSubmitJob s
  | .cancelJob => Sys2Proof.Machine.execCancelJob s
  | .ticketExpiry ticket => Sys2Proof.Machine.execTicketExpiry ticket s
  | .takeGrants => Sys2Proof.Machine.execTakeGrants s
  | .jobDone => Sys2Proof.Machine.execJobDone s
  | .completionDeadline ticket => Sys2Proof.Machine.execCompletionDeadline ticket s
  | .readTickets => Sys2Proof.Machine.execReadTickets s
  | .setJobLimits => Sys2Proof.Machine.execSetJobLimits s
  | .setTerminal => Sys2Proof.Machine.execSetTerminal s
  | .setLine => Sys2Proof.Machine.execSetLine s
  | .readTerminals => Sys2Proof.Machine.execReadTerminals s
  | .answerWindowClose line => Sys2Proof.Machine.execAnswerWindowClose line s
  | .badAnswer line why => Sys2Proof.Machine.execBadAnswer line why s
  | .quietPauseEnd line => Sys2Proof.Machine.execQuietPauseEnd line s
  | .idle line => Sys2Proof.Machine.execIdle line s
  | .joinRequest line serial => Sys2Proof.Machine.execJoinRequest line serial s
  | .ready line => Sys2Proof.Machine.execReady line s
  | .recentlyLostExpiry terminal => Sys2Proof.Machine.execRecentlyLostExpiry terminal s
  | .badge line toggle token => Sys2Proof.Machine.execBadge line toggle token s
  | .pin line toggle digest => Sys2Proof.Machine.execPin line toggle digest s
  | .release line toggle n => Sys2Proof.Machine.execRelease line toggle n s
  | .releaseAll line toggle => Sys2Proof.Machine.execReleaseAll line toggle s
  | .cancel line toggle n => Sys2Proof.Machine.execCancel line toggle n s
  | .nextPage line toggle => Sys2Proof.Machine.execNextPage line toggle s
  | .logout line toggle => Sys2Proof.Machine.execLogout line toggle s
  | .attend line toggle => Sys2Proof.Machine.execAttend line toggle s
  | .serviceDone line toggle => Sys2Proof.Machine.execServiceDone line toggle s
  | .unknownKey line toggle code => Sys2Proof.Machine.execUnknownKey line toggle code s
  | .idleDeadline terminal => Sys2Proof.Machine.execIdleDeadline terminal s
  | .followUp terminal => Sys2Proof.Machine.execFollowUp terminal s
  | .setForecast => Sys2Proof.Machine.execSetForecast s
  | .readSupplies => Sys2Proof.Machine.execReadSupplies s
  | .dayRollover => Sys2Proof.Machine.execDayRollover s
  | .setStockKind => Sys2Proof.Machine.execSetStockKind s
  | .adjustStock => Sys2Proof.Machine.execAdjustStock s
  | .approveOrder => Sys2Proof.Machine.execApproveOrder s
  | .declineOrder => Sys2Proof.Machine.execDeclineOrder s
  | .cancelOrder => Sys2Proof.Machine.execCancelOrder s
  | .receiveDelivery => Sys2Proof.Machine.execReceiveDelivery s
  | .overdueDeadline order => Sys2Proof.Machine.execOverdueDeadline order s
  | .readStock => Sys2Proof.Machine.execReadStock s
  | .readOrders => Sys2Proof.Machine.execReadOrders s
  | .mainPowerOn => Sys2Proof.Machine.execMainPowerOn s
  | .externalReset => Sys2Proof.Machine.execExternalReset s
  | .externalResetAssert => Sys2Proof.Machine.execExternalResetAssert s
  | .mainPowerLoss => Sys2Proof.Machine.execMainPowerLoss s
  | .batteryDip contentsKept => Sys2Proof.Machine.execBatteryDip contentsKept s

end Sys2Proof.Machine
end

