-- ==== Sys2Proof/Machine/Step.lean ====
section
/-! DEFINITION. One step of the FC480: the command at the front of the queue, or one second of idling. -/

namespace Sys2Proof.Machine

/-- The part idles for one second: the two clocks count (R186, log entry 2). -/
def State.idle (s : State) : State := { s with device := s.device.tick }

/-- Takes the command at the front of the queue and runs it with the queue's rest; an empty queue idles. -/
def step (s : State) : Host.Outcome State Fault Refusal :=
  match s.pending with
  | [] => .next s.idle
  | c :: rest => exec c { s with pending := rest }

/-- The state with the command that a word spells at the front of its queue; unchanged where the word
spells none. -/
def State.withFetchWord (s : State) (nbits w : Nat) : State :=
  match decodeTableWord nbits w with
  | some c => { s with pending := c :: s.pending }
  | none => s

end Sys2Proof.Machine
end

