-- ==== Sys2Proof/Safety.lean ====
section
/-! DEFINITION. What counts as a good state of the FC480, and the shapes in which statements name requests,
replies and poll answers. -/

namespace Sys2Proof.Machine

/-! ## Good states -/

/-- A receiver state that received bytes can lead to (R173). -/
def Receiver.good : Receiver → Prop
  | .hunt => True
  | .header got => got.length ≤ 3 ∧ (2 ≤ got.length → ofBytes (got.take 2) ≤ Config.maxBody)
  | .body head got left =>
    head.length = 4 ∧ 1 ≤ left ∧ got.length + left = ofBytes (head.take 2)
      ∧ ofBytes (head.take 2) ≤ Config.maxBody
  | .check head content got =>
    head.length = 4 ∧ got.length ≤ 1 ∧ content.length = ofBytes (head.take 2)
      ∧ ofBytes (head.take 2) ≤ Config.maxBody

/-- A frame that the link can carry: kind of one byte, body of at most 1,020 bytes (R172). -/
def Frame.good (f : Frame) : Prop := f.kind < 256 ∧ f.body.length ≤ Config.maxBody

/-- The host link keeps its bounds: the receiver's frame in progress fits its header, the request queue holds
at most 4 frames, and each counter holds 16 bits (R173, R174). -/
def Link.good (l : Link) : Prop :=
  l.receiver.good ∧ l.queue.length ≤ Config.requestRoom ∧ (∀ f ∈ l.queue, f.good)
    ∧ l.checkCount ≤ Config.max16 ∧ l.lengthCount ≤ Config.max16 ∧ l.gapCount ≤ Config.max16
    ∧ l.framingCount ≤ Config.max16 ∧ l.overrunCount ≤ Config.max16

/-- The lists of bounded length keep their bounds: grant queue, removal list and exhaustion list with their
dropped counts (R92, R103, R114). -/
def Device.bounded (d : Device) : Prop :=
  d.grants.length ≤ Config.grantRoom ∧ d.removals.length ≤ Config.removalRoom
    ∧ d.removalsDropped ≤ 255 ∧ d.exhaustions.length ≤ Config.exhaustionRoom
    ∧ d.exhaustionsDropped ≤ 255

/-- Every table of a settings image is in canonical form. -/
def Settings.canonical (s : Settings) : Prop :=
  s.printers.wf {} = true ∧ s.conditionMap.wf none = true ∧ s.tenants.wf {} = true
    ∧ s.accounts.wf {} = true ∧ s.credentials.wf {} = true ∧ s.rates.wf {} = true
    ∧ s.terminals.wf {} = true ∧ s.lines.wf {} = true ∧ s.kinds.wf {} = true
    ∧ s.enables.groups.wf true = true ∧ s.enables.flags.wf true = true

/-- Every settings image the store holds is in canonical form. -/
def Store.canonical (s : Store) : Prop :=
  s.image.canonical ∧ ∀ w, s.saving = some w → w.canonical

/-- Every runtime table is in canonical form. -/
def Device.tablesCanonical (d : Device) : Prop :=
  d.attention.stamps.wf none = true ∧ d.printers.wf {} = true ∧ d.callouts.wf none = true
    ∧ d.tenants.wf {} = true ∧ d.accounts.wf {} = true ∧ d.tickets.wf none = true
    ∧ d.queues.wf [] = true ∧ d.terminals.wf {} = true ∧ d.lines.wf {} = true
    ∧ d.stock.wf {} = true ∧ d.orders.wf none = true

/-- Every table of the device is in canonical form, so that equal contents are equal data. -/
def Device.canonical (d : Device) : Prop :=
  d.tablesCanonical ∧ d.work.canonical ∧ d.store.canonical

/-- The invariant that every step keeps. -/
def State.good (s : State) : Prop := s.link.good ∧ s.device.bounded ∧ s.device.canonical

/-- While a save runs, the working copy is the image being written (R189). -/
def State.savesItsCopy (s : State) : Prop :=
  ∀ w, s.device.store.saving = some w → s.device.work = w

/-! ## Records that stay distinct and in step -/

/-- A printer has at most one callout record, no serial stands twice, a pending printer has no record and stands in
the list once, and while a printer is pending no record is free (R42 to R45, R48). -/
def Device.desk (d : Device) : Prop :=
  (∀ n c, d.callout n = some c → n < Config.callouts)
  ∧ (∀ m n a b, d.callout m = some a → d.callout n = some b → a.printer = b.printer ∨ a.serial = b.serial → m = n)
  ∧ (d.pendingList.map PendingEntry.printer).Nodup
  ∧ (∀ e ∈ d.pendingList, ∀ n c, d.callout n = some c → c.printer ≠ e.printer)
  ∧ (d.pendingList = [] ∨ ∀ n, n < Config.callouts → d.callout n ≠ none)

/-- No serial stands in two order records, and no kind has two orders in PROPOSED (R160, R161, R163). -/
def Device.orderBook (d : Device) : Prop :=
  (∀ n o, d.order n = some o → n < Config.orders)
  ∧ ∀ m n a b, d.order m = some a → d.order n = some b →
    a.serial = b.serial ∨ a.kind = b.kind ∧ a.phase = .proposed ∧ b.phase = .proposed → m = n

/-- A token is bound to one entry of one account and is not 0, and a digest is held only by an account with
PIN_REQUIRED set (R68, R70, R71, R80). -/
def Settings.keyring (s : Settings) : Prop :=
  (∀ n v, (s.credentials.get {} n).holds v = true → v ≠ 0)
  ∧ (∀ n v, (s.credentials.get {} n).token1 = some v → (s.credentials.get {} n).token2 ≠ some v)
  ∧ (∀ m n v, (s.credentials.get {} m).holds v = true → (s.credentials.get {} n).holds v = true → m = n)
  ∧ ∀ n, (s.credentials.get {} n).digest ≠ none → (s.accounts.get {} n).pinRequired = true

/-- The credential maps of the working copy, of the image and of a running save keep R70. -/
def Device.keyrings (d : Device) : Prop :=
  d.work.keyring ∧ d.store.image.keyring ∧ ∀ w, d.store.saving = some w → w.keyring

/-- No job id stands twice in the store; a release queue holds at most 8 tickets, each once, and exactly the tickets
QUEUED or PRINTING at its printer, of which the head alone may be PRINTING (R99, R111). -/
def Device.queuesInStep (d : Device) : Prop :=
  (∀ m n t u, d.ticket m = some t → d.ticket n = some u → t.jobId = u.jobId → m = n)
  ∧ ∀ p, (d.queue p).Nodup ∧ (d.queue p).length ≤ Config.queueRoom
    ∧ (∀ n, n ∈ d.queue p ↔ ∃ t a, d.ticket n = some t ∧ t.phase.admitted = some a ∧ a.printer = p)
    ∧ ∀ n t, n ∈ (d.queue p).drop 1 → d.ticket n = some t → t.phase.isPrinting = false

/-- The grant queue holds one entry for each PRINTING ticket whose grant is not taken, and no other; the waiting list
holds a printer once, and nobody waits while the grant queue has room (R114, R115). -/
def Device.grantsInStep (d : Device) : Prop :=
  (d.grants.map Grant.ticket).Nodup
  ∧ (∀ g, g ∈ d.grants ↔ ∃ t a deadline, d.ticket g.ticket = some t ∧ t.phase = .printing a false deadline
    ∧ g.jobId = t.jobId ∧ g.printer = a.printer)
  ∧ d.waiting.Nodup ∧ (d.waiting = [] ∨ Config.grantRoom ≤ d.grants.length)

/-! ## What only a few commands move -/

/-- The part of the device that no event of a printer, a ticket, a terminal or an order moves: pins, clocks,
retained-domain records, working copy, store, start record, guard latch and period number. The rest is at its
value in `{}`, so that two devices agree on these records exactly when this part of them is equal. -/
def Device.ground (d : Device) : Device where
  mainPower := d.mainPower
  rstnLow := d.rstnLow
  uptime := d.uptime
  wall := d.wall
  wallValid := d.wallValid
  markerValid := d.markerValid
  comparator := d.comparator
  work := d.work
  store := d.store
  start := d.start
  guardLatch := d.guardLatch
  period := d.period

/-- The fields of a printer's runtime record that only reports, silence, service, rollover, retirement,
configuration and a start move: the last totals, the silence timing, the flags and the accumulators of the
day and of the service interval (R3). The rest is at its initial value, so that two records agree on these
fields exactly when this part of them is equal. -/
def Printer.counters (p : Printer) : Printer where
  lastTotals := p.lastTotals
  missed := p.missed
  silenceDeadline := p.silenceDeadline
  inService := p.inService
  retired := p.retired
  dailyAll := p.dailyAll
  dailyColour := p.dailyColour
  sinceService := p.sinceService

end Sys2Proof.Machine

namespace Sys2Proof

/-- The commands that can start the part again (R190, R191). -/
def Instr.isStart : Instr → Bool
  | .mainPowerOn | .externalReset | .softReset => true
  | _ => false

/-- The commands of main power, RSTN and VBAT: what the part takes while it has not started (R185, R190). -/
def Instr.isPower : Instr → Bool
  | .mainPowerOn | .externalReset | .externalResetAssert | .mainPowerLoss | .batteryDip _ => true
  | _ => false

/-- The commands that can move a printer's counters. -/
def Instr.movesCounters : Instr → Bool
  | .printerReport | .setPrinter | .retirePrinter | .endService | .silenceExpiry _ | .dayRollover => true
  | .attend _ _ | .serviceDone _ _ => true
  | c => c.isStart

/-- The commands that can move the records of terminals and lines. -/
def Instr.movesFloor : Instr → Bool
  | .setTerminal | .setLine | .setTenant | .setAccount => true
  | .answerWindowClose _ | .badAnswer _ _ | .quietPauseEnd _ | .idle _ | .joinRequest _ _ | .ready _ => true
  | .recentlyLostExpiry _ | .badge _ _ _ | .pin _ _ _ | .release _ _ _ | .releaseAll _ _ => true
  | .cancel _ _ _ | .nextPage _ _ | .logout _ _ | .attend _ _ | .serviceDone _ _ => true
  | .unknownKey _ _ _ | .idleDeadline _ | .followUp _ => true
  | c => c.isStart

end Sys2Proof

namespace Sys2Proof.Machine

/-! ## Requests and replies in statements -/

/-- The state with a frame at the front of its request queue: the oldest request. -/
def State.offer (s : State) (kind : Nat) (tag : Byte) (body : List Byte) : State :=
  { s with link := { s.link with queue := ⟨kind, tag, body⟩ :: s.link.queue } }

/-- The state with a reply in the reply buffer and another device: what serving a request leaves. -/
def State.reply (s : State) (kind : Nat) (tag : Byte) (body : List Byte) (d : Device) : State :=
  { s with link := { s.link with reply := some ⟨kind, tag, body⟩ }, device := d }

/-- Command `c` in state `s'` is a start of state `s` that finds the retained domain good: main power or the release of
RSTN with a valid marker, or a SOFT RESET that is taken (R190, R191). -/
def State.restartsBy (s s' : State) (c : Instr) : Prop :=
  (c = .mainPowerOn ∧ s' = s ∧ s.device.mainPower = false ∧ s.device.rstnLow = false ∧ s.device.markerValid = true)
  ∨ (c = .externalReset ∧ s' = s ∧ s.device.mainPower = true ∧ s.device.rstnLow = true ∧ s.device.markerValid = true)
  ∨ (c = .softReset ∧ s.device.running = true ∧ s.device.saving = false ∧ ∃ tag, s' = s.offer 0x09 tag [])

/-- A load from the settings of `d` to those of `e` makes the slot UNCONFIGURED (R20). -/
def Device.losesSlot (d e : Device) (slot : Nat) : Prop :=
  slot < 128 ∧ d.configured slot = true ∧ e.configured slot = false

/-- The body of a PRINTER REPORT (R175). -/
def Report.bytes (r : Report) : List Byte :=
  toBytes 1 r.slot ++ totalsBytes r.totals ++ Channel.all.flatMap (fun ch => toBytes 1 (r.levels.get ch))
    ++ toBytes 1 r.codes.length ++ r.codes.flatMap (toBytes 2)

/-- A report whose fields fit its body (R4, R175). -/
def Report.fits (r : Report) : Prop :=
  r.slot < 256 ∧ r.totals.mono < 2 ^ 32 ∧ r.totals.colour < 2 ^ 32 ∧ r.totals.sheets < 2 ^ 32
    ∧ (∀ ch, r.levels.get ch < 256) ∧ r.codes.length ≤ 16 ∧ ∀ code ∈ r.codes, code < 2 ^ 16

/-- The body of a SUBMIT JOB (R175). -/
def Submission.bytes (b : Submission) : List Byte :=
  toBytes 4 b.jobId ++ toBytes 2 b.owner ++ toBytes 1 b.targetKind ++ toBytes 1 b.targetNumber ++ toBytes 2 b.mono
    ++ toBytes 2 b.colour ++ toBytes 2 b.sheets ++ toBytes 1 b.size ++ toBytes 1 b.title.length ++ b.title

/-- A submission that passes checks 1 to 3 of R99, with the target it names. -/
def Submission.names (b : Submission) (d : Device) (target : Target) : Prop :=
  1 ≤ b.jobId ∧ b.jobId < 2 ^ 32 ∧ b.owner < 2 ^ 16 ∧ b.size ≤ 1 ∧ b.title.length ≤ 32 ∧ b.title.all isChar = true
    ∧ b.mono ≤ 9999 ∧ b.colour ≤ 9999 ∧ 1 ≤ b.sheets ∧ b.sheets ≤ 9999 ∧ b.sheets ≤ b.mono + b.colour
    ∧ b.mono + b.colour ≤ 2 * b.sheets
    ∧ ((b.targetKind = 0 ∧ b.targetNumber < 128 ∧ d.live b.targetNumber = true ∧ target = .printer b.targetNumber)
      ∨ (b.targetKind = 1 ∧ b.targetNumber ≤ 31 ∧ target = .group b.targetNumber))

/-- The ticket in slot `n`, whose job id no other ticket in the store holds (R99). -/
def Device.holds (d : Device) (n : Nat) (t : Ticket) : Prop :=
  d.tickets.wf none = true ∧ d.ticket n = some t ∧ ∀ m u, d.ticket m = some u → u.jobId = t.jobId → m = n

/-- The printer's stored state is the one its conditions give (R12): deriving it again changes nothing. -/
def Device.derived (d : Device) (slot : Nat) : Prop := d.derive slot = (d.printer slot).derived

/-! ## What an event hands on, in statements -/

/-- What an event at printer `p` of device `d` leaves when it has written `w`: each class latched now and not before
goes to the callout table, in the order of R28, and the printer state is then derived again, once (R13, R36). -/
def Device.handedOn (d w : Device) (p : Nat) : Device :=
  (FaultClass.all.foldl (fun x cls =>
    if (w.fault p cls).latched && !(d.fault p cls).latched then x.takeLatching p cls else x) w).rederive p

/-- The release queues considered after tickets have left queue `p`: the waiting list in its order while the grant
queue has room, then the head of `p` (R98, R114, R117). -/
def Device.considered (d : Device) (p : Nat) : Device :=
  (d.waiting.foldl (fun x q => if x.grants.length < 32 then x.consider q else x) d).consider p

/-- `left` is `d` after the PRINTING ticket of slot `n` and of `owner` has left queue `p`: its grant entry goes, the
stall timing of the printer ends, and every other ticket, account and tenant stays (R10, R98). The ticket's slot, its
owner's totals, the removal and exhaustion lists and the flags are stated beside it. -/
def Device.leftBy (d left : Device) (n p owner : Nat) : Prop :=
  left = { d with
      tickets := left.tickets, accounts := left.accounts, tenants := left.tenants, attention := left.attention
      removals := left.removals, removalsDropped := left.removalsDropped
      exhaustions := left.exhaustions, exhaustionsDropped := left.exhaustionsDropped
      queues := d.queues.put [] p ((d.queue p).filter (· ≠ n))
      grants := d.grants.filter fun g => g.ticket ≠ n
      printers := (({ d with printers := d.printers.put {} p { d.printer p with lastAdvance := none } } : Device).hand
        p .stall false).printers }
    ∧ (∀ m, m ≠ n → left.ticket m = d.ticket m) ∧ (∀ a, a ≠ owner → left.accountTotals a = d.accountTotals a)
    ∧ ∀ x, x ≠ (d.accountSettings owner).tenant → left.tenantTotals x = d.tenantTotals x

/-- The channel counts in the demand of kind `k`: its printer is configured and not RETIRED, the channel stands in the
channel set with that kind, and D is set, below the lead time and below 999 (R160). -/
def Device.countsFor (d : Device) (k p : Nat) (ch : Channel) : Bool :=
  d.live p && (d.settings p).channels.get ch && (d.settings p).kinds.get ch = some k
    && (d.forecast p ch).days.any fun days => days < (d.kindSettings k).leadTime && days < 999

/-- Some channel joined or left those counted in the demand of the kind (R160). -/
def Device.demandDiffers (d e : Device) (k : Nat) : Bool :=
  (List.range 128).any fun p => Channel.all.any fun ch => d.countsFor k p ch != e.countsFor k p ch

/-- The chosen kinds evaluated in ascending number (R153, R160, R161; log entry 45). -/
def Device.evaluatedAt (d : Device) (which : Nat → Bool) : Device :=
  (List.range 16).foldl (fun x k => if which k then x.evaluate k else x) d

/-- A freed order record offered to the blocked kinds, in ascending number (R163; log entry 52). -/
def Device.offered (d : Device) : Device :=
  (List.range 16).foldl (fun x k => if (x.kind k).blocked then x.evaluate k else x) d

/-- The stock table and the order table of `e` are those of `x`. -/
def Device.stocksAs (e x : Device) : Prop :=
  e.stock = x.stock ∧ e.orders = x.orders ∧ e.orderSerial = x.orderSerial

/-- Bytes received without a bad stop bit. -/
def clean (bytes : List Byte) : List RxByte := bytes.map fun b => ⟨b, false⟩

/-- What freeing callout record `n` of device `d` leaves in `e`: with nobody in the pending list who still needs a
visit, the record is free and the list empty; else the first who does receives the record, here where no other record
was free, and those before leave the list (R46, R48). -/
def Device.handsRecordOn (d e : Device) (n : Nat) : Prop :=
  ((∀ x ∈ d.pendingList, e.needsVisit x.printer = false) →
    e.callouts = d.callouts.put none n none ∧ e.pendingList = [])
  ∧ ∀ gone x rest, d.pendingList = gone ++ x :: rest → (∀ y ∈ gone, e.needsVisit y.printer = false) →
    e.needsVisit x.printer = true → n < 32 → (∀ m, m < 32 → d.callout m ≠ none) →
    e.pendingList = rest ∧ ∃ k, e.callouts = d.callouts.put none n (some k) ∧ k.printer = x.printer
      ∧ k.classes = e.calloutClasses x.printer ∧ k.firstCode = x.code ∧ k.level = 0 ∧ k.revisits = 0
      ∧ k.phase = .opened (after d.uptime (d.responseTime k.classes))

/-- The serial is the first from a counter on that is not held (R43, R163). -/
def firstFree (held : BitVec 16 → Prop) (counter serial : BitVec 16) : Prop :=
  ¬ held serial ∧ ∃ k : Nat, serial = counter + BitVec.ofNat 16 k
    ∧ ∀ j : Nat, j < k → held (counter + BitVec.ofNat 16 j)

/-! ## Terminals in statements -/

/-- The outstanding poll of a line goes to address `a`, a configured position with terminal index `i`. -/
def Device.awaits (d : Device) (line a i : Nat) : Prop :=
  1 ≤ a ∧ a ≤ 32 ∧ i = line * 32 + a - 1 ∧ (∃ m, (d.line line).phase = .polling a m)
    ∧ (d.terminalSettings i).configured = true

/-- The device with one terminal record replaced. -/
def Device.withTerminal (d : Device) (i : Nat) (t : Terminal) : Device :=
  { d with terminals := d.terminals.put {} i t }

/-- A PRESENT terminal's record after a good answer: the outcome joins the poll window; a screen that the poll
carried is delivered, and a RESULT or LOCKED screen then sets its follow-up 3 s ahead (R130, R132). -/
def Terminal.answered (t : Terminal) (now : Time) : Terminal :=
  { t with
    window := t.window.drop 1 ++ [true]
    pending := t.pending.filter fun p => !p.carried
    follow := match t.pending with
      | some ⟨.result _ _, kind, true⟩ => kind.map fun k => (after now 3, k)
      | some ⟨.locked _ _, kind, true⟩ => kind.map fun k => (after now 3, k)
      | _ => t.follow }

/-- A PRESENT terminal's record after a good answer whose event is accepted: the ack bit becomes the event's
toggle, and an open session's idle deadline restarts (R131, R134). -/
def Terminal.accepted (t : Terminal) (now idle : Time) (toggle : Bool) : Terminal :=
  { t.answered now with
    ack := toggle
    session := match t.session with
      | .none => .none
      | .pinWait account _ => .pinWait account idle
      | .listing account _ page refs => .listing account idle page refs
      | .serviceMenu account _ last => .serviceMenu account idle last }

/-- The record in a session with a screen just made: it replaces a pending one, and a running follow-up is
cancelled (R132). -/
def Terminal.showing (t : Terminal) (screen : Screen) (follow : Option FollowUp) (session : Session) : Terminal :=
  { t with session := session, pending := some ⟨screen, follow, false⟩, follow := none }

/-- The record with a listing just built at the terminal's printer: JOB LIST is made, and the session keeps its
references and its page number (R105, R134). -/
def Device.listed (d : Device) (i account : Nat) (idle : Time) (page : Nat) (t : Terminal) : Terminal :=
  let q := (d.terminalSettings i).printer
  t.showing (.jobList (d.listingPage account q page)) none
    (.listing account idle (d.listingPage account q page).number (d.listingRefs account q page))

/-- The record whose session has ended with WELCOME (R133, R139). -/
def Device.welcomed (d : Device) (i : Nat) (t : Terminal) : Terminal :=
  let q := (d.terminalSettings i).printer
  t.showing (.welcome (match (d.settings q).name with
    | some text => .name text
    | none => .slot q) (d.settings q).group) none .none

/-- What a line has sent when it polls address `b`: JOIN GRANT to a JOINING terminal, which is counted (log entry 23),
and else POLL, which tells an ABSENT terminal that it has not joined and carries the ack bit and the pending screen of a
PRESENT one (R125, R126, R129, R130, R132). -/
def Device.polls (d : Device) (line b cycles : Nat) : Device :=
  let i := line * 32 + b - 1
  let t := d.terminal i
  let q := (d.terminalSettings i).printer
  { d.withTerminal i (match t.presence with
      | .absent => t
      | .joining => { t with joinPolls := min 3 (t.joinPolls + 1) }
      | .present => { t with pending := t.pending.map fun p => { p with carried := true } }) with
    lines := d.lines.put {} line ⟨.polling b (match t.presence with
      | .absent => .poll false false none
      | .joining => .joinGrant (d.settings q).name (d.settings q).group false
      | .present => .poll true t.ack (t.pending.map fun p => p.screen)), cycles⟩ }

/-- The idle deadline that an event accepted at a line sets (R134). -/
def Device.idleAt (d : Device) (line : Nat) : Time := after d.uptime (d.lineSettings line).idleTimeout

end Sys2Proof.Machine
end

