-- ==== Sys2Proof/Certificates/Slice0/Obligations.lean ====
section
/-! DEFINITION. The statements about the FC480 that the provers are asked for. -/

open Sys2Proof Sys2Proof.Machine

/-! ## The machine as a whole -/

/-- A step takes the command at the front of the queue and runs it with the queue's rest; with no command waiting, one
second passes: both clocks count and nothing else happens. The queue of waiting commands is the model's form of a block
that takes commands from outside, and that an idle step is one second is the model's choice (log entry 2); that the
clocks count seconds modulo 2^32 is R186. -/
def Obligations.StepRunsTheFrontCommand : Prop :=
  (∀ (s : State) (c : Instr) (rest : List Instr),
    step { s with pending := c :: rest } = exec c { s with pending := rest })
  ∧ ∀ s : State, s.pending = [] →
    step s = .next { s with
      device := { s.device with uptime := s.device.uptime + 1, wall := s.device.wall + 1 } }

/-- The state after reset meets the invariants of the machine: it is good, a save would hold its copy, and its callout
table, order book, credential maps, tickets, queues and grants are in step. -/
def Obligations.ResetMeetsTheInvariants : Prop :=
  State.reset.good ∧ State.reset.savesItsCopy ∧ State.reset.device.desk ∧ State.reset.device.orderBook
    ∧ State.reset.device.keyrings ∧ State.reset.device.queuesInStep ∧ State.reset.device.grantsInStep

/-- What reset leaves, record by record: the host link in HUNT with an empty queue, no reply and counters at 0; the
clocks, period and serial counters at 0, the wall clock invalid, no next rollover, the guard latch clear; the store IDLE
with no outcome; every settings record of the default image, the twelve policies of R28 among them; every printer,
account, tenant, terminal, line and stock kind at its initial values; no ticket, queue, grant, waiting printer, callout,
pending printer, order, removal or exhaustion; the four flags that a start after retained loss with an invalid image
raises, in their order, and ATTN low. That this state stands for reset is the model's choice (log entry 3). -/
def Obligations.ResetHoldsTheInitialValues : Prop :=
  let d := State.reset.device
  State.reset.link = ⟨.hunt, [], none, 0, 0, 0, 0, 0⟩ ∧ State.reset.pending = []
    ∧ d.mainPower = true ∧ d.rstnLow = false ∧ d.uptime = 0 ∧ d.wall = 0 ∧ d.wallValid = false
    ∧ d.markerValid = true ∧ d.comparator = false ∧ d.guardLatch = false ∧ d.period = 0
    ∧ d.saving = false ∧ d.store.checksumGood = false ∧ d.store.lastSave = .none ∧ d.start = ⟨.mainPower, true, true⟩
    ∧ d.nextRollover = none ∧ d.calloutSerial = 0 ∧ d.orderSerial = 0 ∧ d.nextSequence = 0
    ∧ d.grants = [] ∧ d.waiting = [] ∧ d.pendingList = [] ∧ d.removals = [] ∧ d.removalsDropped = 0
    ∧ d.exhaustions = [] ∧ d.exhaustionsDropped = 0
    ∧ d.policy .jam = ⟨.retry, true, 120, 3, 60, 60⟩ ∧ d.policy .coverOpen = ⟨.retry, false, 300, 7, 60, 240⟩
    ∧ d.policy .paperOut = ⟨.report, false, 60, 7, 60, 240⟩ ∧ d.policy .supplyEmpty = ⟨.latched, false, 60, 1, 60, 240⟩
    ∧ d.policy .supplyAbsent = ⟨.latched, false, 60, 1, 60, 240⟩ ∧ d.policy .mechanism = ⟨.latched, true, 60, 1, 60, 120⟩
    ∧ d.policy .silence = ⟨.retry, true, 300, 3, 60, 120⟩ ∧ d.policy .stall = ⟨.retry, true, 180, 2, 60, 60⟩
    ∧ d.policy .counterRegress = ⟨.report, false, 60, 1, 60, 240⟩
    ∧ d.policy .consumption = ⟨.report, false, 60, 1, 60, 240⟩
    ∧ d.policy .serviceDue = ⟨.report, false, 60, 1, 60, 1440⟩ ∧ d.policy .other = ⟨.report, false, 60, 1, 60, 240⟩
    ∧ d.work.guard = ⟨false, 5, 15⟩ ∧ d.work.completionMinutes = 20 ∧ d.work.stallTime = 300
    ∧ d.work.forecast = ⟨3, 2, 30, 5, 10, 5, 200, 20, 3⟩
    ∧ d.work.enables.global = true ∧ (∀ g, d.groupEnabled g = true) ∧ (∀ f, d.enabled f = true)
    ∧ (∀ n, (d.settings n).enabled = false ∧ d.mapEntry n = none ∧ d.tenantSettings n = ⟨false, 4294967295, true, 24⟩
      ∧ d.accountSettings n = ⟨false, 0, .user, 4294967295, true, false, 16⟩ ∧ d.credentials n = ⟨none, none, none⟩
      ∧ d.rates n = ⟨0, 0, 0, 0, 16, 0⟩ ∧ d.terminalSettings n = ⟨false, 0, none⟩ ∧ d.lineSettings n = ⟨false, 45⟩
      ∧ d.kindSettings n = ⟨false, 0, 0, 1, 1, 7, 2⟩)
    ∧ (∀ p, (d.printer p).lastTotals = none ∧ (d.printer p).missed = 0 ∧ (d.printer p).silenceDeadline = none
      ∧ (d.printer p).inService = false ∧ (d.printer p).retired = false ∧ (d.printer p).printing = ⟨0, 0, 0⟩
      ∧ (d.printer p).lastAdvance = none ∧ (d.printer p).dailyAll = 0 ∧ (d.printer p).dailyColour = 0
      ∧ (d.printer p).sinceService = 0 ∧ (d.printer p).derived = .unconfigured ∧ (d.printer p).throughputAll = none
      ∧ (d.printer p).throughputColour = none ∧ (∀ cls, d.fault p cls = ⟨false, false, none, 0, none, none⟩)
      ∧ (∀ ch, (d.printer p).marks.get ch = false ∧ d.forecast p ch = ⟨none, none, 0, none, none, none, false⟩)
      ∧ d.queue p = [])
    ∧ (∀ n, d.ticket n = none ∧ d.callout n = none ∧ d.order n = none ∧ d.kind n = ⟨0, false, false⟩
      ∧ d.accountTotals n = ⟨0, 0, 0, 0, none⟩ ∧ d.tenantTotals n = ⟨0, 0⟩ ∧ d.line n = ⟨.silent, 0⟩)
    ∧ (∀ i, d.terminal i = ⟨.absent, none, 0, none, none, [true, true, true, true, true, true, true, true], false, none,
        none, .none⟩)
    ∧ d.setFlags = [(.started, 0, 1), (.retainedLost, 0, 2), (.storeInvalid, 0, 3), (.clockInvalid, 0, 4)]
    ∧ d.attention.counter = 4 ∧ d.attnLow = true

/-- Every step keeps the invariant of good states: the receiver's frame in progress fits its header, the
request queue, the grant queue, the removal list and the exhaustion list keep their bounds, every counter of the
link and of dropped entries keeps its range, and every table stays in canonical form (R92, R103, R114, R173,
R174). Every step also keeps the image being written equal to the working copy while a save runs (R189). -/
def Obligations.StepKeepsGoodStates : Prop :=
  ∀ s t : State, step s = .next t →
    (s.good → t.good) ∧ (s.savesItsCopy → t.savesItsCopy)

/-- From a good state every step keeps what the spec says of single records: the callout table and its pending list
(a printer has at most one record, serials are distinct, a pending printer has no record and no record is free while one
waits), the order book (distinct serials, at most one PROPOSED order of a kind) and the credential maps of the working
copy, the image and a running save (a token is bound once, a digest only with PIN_REQUIRED) (R42 to R45, R48, R68, R70,
R71, R80, R160, R161, R163). -/
def Obligations.StepKeepsRecordsDistinct : Prop :=
  ∀ s t : State, step s = .next t → s.good →
    (s.device.desk → t.device.desk) ∧ (s.device.orderBook → t.device.orderBook)
      ∧ (s.device.keyrings → t.device.keyrings)

/-- From a good state every step keeps tickets and release queues in step: job ids are distinct, and each queue holds at
most 8 tickets, each once, exactly those QUEUED or PRINTING at its printer, the PRINTING one at its head; and from there it
keeps the grant queue to one entry for each PRINTING ticket whose grant is not taken, and the waiting list empty while the
grant queue has room (R99, R111, R114, R115). -/
def Obligations.StepKeepsQueuesInStep : Prop :=
  ∀ s t : State, step s = .next t → s.good → s.device.queuesInStep →
    t.device.queuesInStep ∧ (s.device.grantsInStep → t.device.grantsInStep)

/-- Which commands move which records. A part that has not started takes only the commands of main power, RSTN and VBAT; every
other command leaves it as it is. Beside a start at main power-on or at release of RSTN: no command touches uptime,
so that no deadline moves (that a command takes no time is log entry 2); SET TIME alone moves the wall clock and its valid
flag; the period number moves by CLOSE PERIOD alone; and once the guard latch is set, nothing clears it or changes the
guard record but SOFT RESET, which keeps the latch. A printer's last totals, silence timing, retired and in-service flags
and its daily and service accumulators move only by the printer's report, its settings and retirement, the deadlines of
silence, the day rollover, the technicians' keys and END SERVICE, and a start. The records of terminals and lines move only
by the floor lines themselves, by SET TERMINAL and SET LINE, by SET TENANT and SET ACCOUNT, which can end sessions, and by
a start (R5 to R9, R53, R55, R56, R63, R64, R73, R76, R126, R127, R139, R153, R173, R187, R190, R191). -/
def Obligations.RecordsMoveByTheirCommands : Prop :=
  (∀ (c : Instr) (s : State), s.device.running = false → c.isPower = false → exec c s = .next s)
  ∧ (∀ (c : Instr) (s t : State), c ≠ .mainPowerOn → c ≠ .externalReset → exec c s = .next t →
    t.device.uptime = s.device.uptime
    ∧ (c ≠ .setTime → t.device.wall = s.device.wall ∧ t.device.wallValid = s.device.wallValid)
    ∧ (c ≠ .closePeriod → t.device.period = s.device.period)
    ∧ (s.device.guardLatch = true → t.device.guardLatch = true
      ∧ (c ≠ .softReset → t.device.work.guard = s.device.work.guard)))
  ∧ ∀ (c : Instr) (s t : State), exec c s = .next t →
    (c.movesCounters = false → ∀ p, (t.device.printer p).counters = (s.device.printer p).counters)
    ∧ (c.movesFloor = false → t.device.terminals = s.device.terminals ∧ t.device.lines = s.device.lines)

/-! ## The host link -/

/-- A frame that arrives whole, in HUNT and with room in the request queue, joins the queue's tail as it was sent, and nothing
else changes: no bit of kind, tag or body is lost on the line. A gap abandons the frame in progress, which the counter GAP
counts, and counts nothing in HUNT; the frame that begins after it is taken from HUNT. In HUNT, a complete frame that finds
four frames waiting is discarded and counted by OVERRUN, a frame whose two check bytes are wrong by CHECK, a frame whose
second length byte gives a length above 1,020 by LENGTH, at that byte, and a frame broken by a bad stop bit by FRAMING; a
byte other than C3h and a byte with a bad stop bit are ignored (R172, R173, R174). -/
def Obligations.FramesJoinTheQueueOrAreCounted : Prop :=
  ∀ (s : State), s.device.running = true →
    (∀ f : Frame, s.link.receiver = .hunt → s.link.queue.length < 4 → f.good →
      exec (.hostFrame (clean f.wire)) s = .next { s with
        link := { s.link with queue := s.link.queue ++ [f] } })
    ∧ (∀ f : Frame, f.good → s.link.queue.length < 4 →
      exec (.frameGap (clean f.wire)) s = .next { s with
        link := { s.link with
          receiver := .hunt
          queue := s.link.queue ++ [f]
          gapCount := if s.link.receiver = .hunt then s.link.gapCount
            else min 65535 (s.link.gapCount + 1) } })
    ∧ (s.link.receiver = .hunt →
    (∀ f : Frame, f.good → 4 ≤ s.link.queue.length →
      exec (.hostFrame (clean f.wire)) s = .next { s with
        link := { s.link with overrunCount := min 65535 (s.link.overrunCount + 1) } })
    ∧ (∀ (f : Frame) (a b : Byte), f.good → [a, b] ≠ checkBytes (f.header ++ f.body) →
      exec (.hostFrame (clean (0xC3 :: (f.header ++ f.body ++ [a, b])))) s = .next { s with
        link := { s.link with checkCount := min 65535 (s.link.checkCount + 1) } })
    ∧ (∀ lo hi : Byte, 1020 < lo.toNat + 256 * hi.toNat →
      exec (.hostFrame (clean [0xC3, lo, hi])) s = .next { s with
        link := { s.link with lengthCount := min 65535 (s.link.lengthCount + 1) } })
    ∧ (∀ (f : Frame) (k : Nat) (v : Byte), f.good → 1 ≤ k → k < f.wire.length →
      exec (.hostFrame (clean (f.wire.take k) ++ [⟨v, true⟩])) s = .next { s with
        link := { s.link with framingCount := min 65535 (s.link.framingCount + 1) } })
    ∧ (∀ v : Byte, v ≠ 0xC3 → exec (.hostFrame [⟨v, false⟩]) s = .next s)
    ∧ (∀ v : Byte, exec (.hostFrame [⟨v, true⟩]) s = .next s))

/-- A frame whose kind is no request kind of the table of R174 is answered UNKNOWN_KIND, with the kind plus 80h, or FFh
for a kind of 80h or above, and has no effect; each request of fixed length answers a body of any other length with
BAD_LENGTH and has no effect, SET GUARD behind its latch and the requests that a running save refuses among them
(R174, R176). So is a body whose length does not fit what it declares: SUBMIT JOB (with
reason byte NONE), ACK ATTENTION (a count of 0 or above 16 too), SET PRINTER by its name length and channel count,
SET CREDENTIAL by its entry, and the requests with a selector by the selector's fields, an empty body among them (R71,
R99, R174 to R176, R180). The one length of SET CONDITION MAP, for EMPTY too, and of CLEAR FAULT, for ALL too, where a selector
stands and what follows it is log entry 8, the reason byte log entry 27, the channel list log entry 6, the place of the ACK
count log entry 26. -/
def Obligations.UnknownKindAndWrongLengthAreAnswered : Prop :=
  (∀ (s : State) (kind : Nat) (tag : Byte) (body : List Byte), s.device.running = true → kind < 256 →
    kind ∉ [0x01, 0x02, 0x03, 0x04, 0x08, 0x09, 0x0A, 0x0B, 0x10, 0x11, 0x12, 0x13, 0x18, 0x19, 0x1A, 0x1B,
      0x20, 0x21, 0x22, 0x23, 0x28, 0x29, 0x2A, 0x2B, 0x2C, 0x2D, 0x2E, 0x2F, 0x30, 0x31, 0x38, 0x39, 0x3A,
      0x40, 0x41, 0x42, 0x43, 0x44, 0x45, 0x48, 0x49, 0x4A, 0x50, 0x51, 0x58, 0x59, 0x5A, 0x5B, 0x5C, 0x5D,
      0x5E, 0x5F] →
      exec .unknownKind (s.offer kind tag body)
        = .next (s.reply (if kind < 0x80 then kind + 0x80 else 0xFF) tag [0x01] s.device))
  ∧ (∀ (c : Instr) (kind len : Nat), (c, kind, len) ∈ [(.identify, 0x01, 0), (.setAttentionEnables, 0x04, 34),
      (.commitSettings, 0x08, 0), (.softReset, 0x09, 0), (.setTime, 0x0A, 4), (.readTime, 0x0B, 0),
      (.retirePrinter, 0x11, 1), (.readPrinter, 0x13, 1), (.setConditionMap, 0x18, 9),
      (.setFaultPolicy, 0x19, 10), (.clearFault, 0x1A, 2), (.dispatchCallout, 0x21, 2),
      (.closeCallout, 0x22, 2), (.endService, 0x23, 1), (.setTenant, 0x28, 8), (.setAccount, 0x29, 12),
      (.eraseCredential, 0x2B, 3), (.setGuard, 0x2C, 4), (.unlockAccount, 0x2D, 2), (.adjustUsage, 0x2E, 6),
      (.closePeriod, 0x2F, 2), (.readAccount, 0x30, 2), (.readTenant, 0x31, 1), (.setClass, 0x38, 11),
      (.quote, 0x3A, 11), (.cancelJob, 0x41, 4), (.takeGrants, 0x42, 1), (.jobDone, 0x43, 11),
      (.setJobLimits, 0x45, 3), (.setTerminal, 0x48, 9), (.setLine, 0x49, 3), (.setForecast, 0x50, 13),
      (.setStockKind, 0x58, 11), (.adjustStock, 0x59, 3), (.approveOrder, 0x5A, 5),
      (.declineOrder, 0x5B, 3), (.cancelOrder, 0x5C, 3), (.receiveDelivery, 0x5D, 5),
      (.readOrders, 0x5F, 0)] →
    ∀ (s : State) (tag : Byte) (body : List Byte), s.device.running = true → body.length ≠ len →
      exec c (s.offer kind tag body) = .next (s.reply (kind + 0x80) tag [0x02] s.device))
  ∧ ∀ (s : State) (tag : Byte), s.device.running = true →
    let short := fun (c : Instr) (kind : Nat) (body : List Byte) =>
      exec c (s.offer kind tag body) = .next (s.reply (kind + 0x80) tag [0x02] s.device)
    (∀ body : List Byte, body.length < 16 ∨ body.length ≠ 16 + (body.getD 15 0).toNat →
      exec .submitJob (s.offer 0x40 tag body) = .next (s.reply 0xC0 tag [0x02, 1] s.device))
    ∧ short .ackAttention 0x03 []
    ∧ (∀ (n : Byte) (rest : List Byte), n = 0 ∨ 16 < n.toNat ∨ rest.length ≠ 3 * n.toNat + 5 →
      short .ackAttention 0x03 (n :: rest))
    ∧ (∀ body : List Byte, body.length < 6 → short .setPrinter 0x10 body)
    ∧ (∀ (lead rest : List Byte) (n : Byte), lead.length = 5 →
      (rest.length < n.toNat + 1 → short .setPrinter 0x10 (lead ++ n :: rest))
      ∧ ∀ (name tail : List Byte) (m : Byte), rest = name ++ m :: tail → name.length = n.toNat →
        tail.length ≠ m.toNat + 17 → short .setPrinter 0x10 (lead ++ n :: rest))
    ∧ (∀ body : List Byte, body.length < 3 → short .setCredential 0x2A body)
    ∧ (∀ (n : Nat) (value : List Byte),
      (value.length ≠ 8 → short .setCredential 0x2A (toBytes 2 n ++ 0 :: value)
        ∧ short .setCredential 0x2A (toBytes 2 n ++ 1 :: value))
      ∧ (value.length ≠ 4 → short .setCredential 0x2A (toBytes 2 n ++ 2 :: value)))
    ∧ ∀ (c : Instr) (kind : Nat) (lens : List Nat), (c, kind, lens) ∈ [(.readAttention, 0x02, [0, 2, 0]),
        (.readFaults, 0x1B, [1, 0, 0]), (.readCallouts, 0x20, [0, 1, 1]), (.readClass, 0x39, [1, 0]),
        (.readTickets, 0x44, [4, 3, 1, 0, 0, 0]), (.readTerminals, 0x4A, [1, 2]), (.readSupplies, 0x51, [1, 0, 0]),
        (.readStock, 0x5E, [1, 0])] →
      short c kind []
      ∧ ∀ (sel len : Nat) (rest : List Byte), lens[sel]? = some len → rest.length ≠ len →
        short c kind (BitVec.ofNat 8 sel :: rest)

/-- While a save runs, no command but a start that reads the store again changes the working copy, and no setting request
changes the device. A setting request, COMMIT SETTINGS or SOFT RESET that would be answered BAD_LENGTH or BAD_FIELD is
answered so while a save runs too, and with any other answer it is answered BUSY then; SET GUARD behind its latch is
answered LOCKED whether or not a save runs (R71 to R73, R174, R189, R191). -/
def Obligations.SettingRequestsWaitForASave : Prop :=
  (∀ (c : Instr) (s t : State), s.device.saving = true → c ≠ .mainPowerOn → c ≠ .externalReset →
    exec c s = .next t → t.device.work = s.device.work)
  ∧ (∀ (c : Instr) (kind : Nat), (c, kind) ∈ [(.setAttentionEnables, 0x04), (.commitSettings, 0x08), (.softReset, 0x09),
      (.setPrinter, 0x10), (.setConditionMap, 0x18), (.setFaultPolicy, 0x19), (.setTenant, 0x28), (.setAccount, 0x29),
      (.setCredential, 0x2A), (.eraseCredential, 0x2B), (.setGuard, 0x2C), (.setClass, 0x38), (.setJobLimits, 0x45),
      (.setTerminal, 0x48), (.setLine, 0x49), (.setForecast, 0x50), (.setStockKind, 0x58)] →
    (∀ s t : State, s.device.saving = true → exec c s = .next t → t.device = s.device)
    ∧ ∀ (s : State) (tag : Byte) (body : List Byte) (w : Settings), s.device.running = true → s.device.saving = false →
      (c = .setGuard → s.device.guardLatch = false) →
      let busy : State := { s with device := { s.device with store := { s.device.store with saving := some w } } }
      ∃ (t : State) (st : Byte) (rest : List Byte), exec c (s.offer kind tag body) = .next t
        ∧ t.link.reply = some ⟨kind + 0x80, tag, st :: rest⟩
        ∧ exec c (busy.offer kind tag body) = .next (busy.reply (kind + 0x80) tag
            [if st = 0x02 ∨ st = 0x03 then st else 0x0A] busy.device))
  ∧ ∀ (s : State) (tag a b c e : Byte), s.device.running = true → s.device.guardLatch = true →
    exec .setGuard (s.offer 0x2C tag [a, b, c, e]) = .next (s.reply 0xAC tag [0x08] s.device)

/-- The requests that read leave the device as it is, whatever their body: at most their frame leaves the queue
and a reply stands in the reply buffer. READ CLASS with EXHAUSTED and READ TICKETS with REMOVED empty the list they
read and are stated apart. A number out of range, and a selector that names no form, is answered BAD_FIELD; an
UNCONFIGURED slot of READ FAULTS or READ SUPPLIES, and a job id that no ticket holds, NOT_FOUND (R18, R39, R58, R78, R93,
R94, R120, R141, R155, R170, R177, R183). The selector bytes are log entry 8. -/
def Obligations.ReadsLeaveTheDevice : Prop :=
  (∀ (c : Instr) (s t : State), c ∈ [.unknownKind, .identify, .readAttention, .readTime, .readPrinter,
      .readFaults, .readCallouts, .readAccount, .readTenant, .quote, .readTerminals, .readSupplies, .readStock,
      .readOrders] → exec c s = .next t →
    t.device = s.device ∧ t.pending = s.pending ∧ (t.link = s.link ∨
      ∃ f rest reply, s.link.queue = f :: rest ∧ t.link = { s.link with queue := rest, reply := reply }))
  ∧ ∀ (s : State) (tag : Byte) (n m : Nat), s.device.running = true → n < 256 → m < 256 →
    let d := s.device
    let refused := fun (st : Byte) (c : Instr) (kind : Nat) (body : List Byte) =>
      exec c (s.offer kind tag body) = .next (s.reply (kind + 0x80) tag [st] d)
    let b := BitVec.ofNat 8 n
    let e := BitVec.ofNat 8 m
    (∀ (c : Instr) (kind forms : Nat) (rest : List Byte), (c, kind, forms) ∈ [(.readAttention, 0x02, 3),
        (.readFaults, 0x1B, 3), (.readCallouts, 0x20, 3), (.readClass, 0x39, 2), (.readTickets, 0x44, 6),
        (.readTerminals, 0x4A, 2), (.readSupplies, 0x51, 3), (.readStock, 0x5E, 2)] → forms ≤ n →
      refused 0x03 c kind (b :: rest))
    ∧ (2 ≤ n ∨ 128 ≤ m → refused 0x03 .readAttention 0x02 [1, b, e])
    ∧ (128 ≤ n → refused 0x03 .readPrinter 0x13 [b] ∧ refused 0x03 .readFaults 0x1B [0, b]
      ∧ refused 0x03 .readCallouts 0x20 [1, b] ∧ refused 0x03 .readCallouts 0x20 [2, b]
      ∧ refused 0x03 .readTickets 0x44 [2, b] ∧ refused 0x03 .readSupplies 0x51 [0, b])
    ∧ (n < 128 → d.configured n = false → refused 0x04 .readFaults 0x1B [0, b] ∧ refused 0x04 .readSupplies 0x51 [0, b])
    ∧ (64 ≤ n → refused 0x03 .readTenant 0x31 [b])
    ∧ (8 ≤ n → refused 0x03 .readClass 0x39 [0, b])
    ∧ (16 ≤ n → refused 0x03 .readStock 0x5E [0, b])
    ∧ (4 ≤ n → refused 0x03 .readTerminals 0x4A [0, b])
    ∧ (4 ≤ n ∨ m = 0 ∨ 32 < m → refused 0x03 .readTerminals 0x4A [1, b, e])
    ∧ (∀ a, a < 65536 →
      (4096 ≤ a → refused 0x03 .readAccount 0x30 (toBytes 2 a))
      ∧ (4096 ≤ a ∨ 63 < n → refused 0x03 .readTickets 0x44 (1 :: (toBytes 2 a ++ [b]))))
    ∧ refused 0x03 .readTickets 0x44 (0 :: toBytes 4 0)
    ∧ (∀ id, 1 ≤ id → id < 2 ^ 32 → d.tickets.wf none = true → (∀ k t, d.ticket k = some t → t.jobId ≠ id) →
      refused 0x04 .readTickets 0x44 (0 :: toBytes 4 id))
    ∧ ∀ m c sh size a : Nat, m < 65536 → c < 65536 → sh < 65536 → size < 256 → a < 65536 →
      let body := fun pres : Nat => toBytes 1 n ++ toBytes 2 m ++ toBytes 2 c ++ toBytes 2 sh ++ toBytes 1 size
        ++ toBytes 1 pres ++ toBytes 2 a
      (8 ≤ n ∨ 9999 < m ∨ 9999 < c ∨ 9999 < sh ∨ 1 < size → refused 0x03 .quote 0x3A (body 0))
      ∧ (8 ≤ n ∨ 9999 < m ∨ 9999 < c ∨ 9999 < sh ∨ 1 < size ∨ 4096 ≤ a → refused 0x03 .quote 0x3A (body 1))
      ∧ ∀ pres, 2 ≤ pres → pres < 256 → refused 0x03 .quote 0x3A (body pres)

/-! ## Setting requests that write one record -/

/-- SET CLASS writes the rate record of its class, SET CONDITION MAP one entry of the condition map, and SET FAULT
POLICY one policy; each answers OK and changes nothing else (R26, R28, R29, R81, R82). EMPTY as presence byte 0,
the order of the class bytes and the callout byte are the model's reading (log entries 5, 7 and 8). -/
def Obligations.RateMapAndPolicyRequestsWriteOneRecord : Prop :=
  ∀ (s : State) (tag : Byte), s.device.running = true → s.device.saving = false →
    (∀ (cls : Nat) (r : Rates), cls < 8 → r.rm < 65536 → r.rc < 65536 → r.rs < 65536 → r.dc < 65536 →
      16 ≤ r.lf → r.lf ≤ 64 → r.mc < 256 →
      exec .setClass (s.offer 0x38 tag (toBytes 1 cls ++ toBytes 2 r.rm ++ toBytes 2 r.rc ++ toBytes 2 r.rs
        ++ toBytes 2 r.dc ++ toBytes 1 r.lf ++ toBytes 1 r.mc))
        = .next (s.reply 0xB8 tag [0x00] { s.device with
            work := { s.device.work with rates := s.device.work.rates.put {} cls r } }))
    ∧ (∀ (n : Nat) (e : MapEntry), n < 48 → e.codeLow ≤ e.codeHigh → e.codeHigh < 65536 →
      e.cls.isMapped = true → (e.channel.isSome = true → e.cls = .supplyAbsent) →
      exec .setConditionMap (s.offer 0x18 tag (toBytes 1 n ++ 1 :: toBytes 2 e.codeLow ++ toBytes 2 e.codeHigh
        ++ toBytes 1 e.cls.number ++ optBytes 1 (e.channel.map Channel.number)))
        = .next (s.reply 0x98 tag [0x00] { s.device with
            work := { s.device.work with
              conditionMap := s.device.work.conditionMap.put none n (some e) } }))
    ∧ (∀ n : Nat, n < 48 →
      exec .setConditionMap (s.offer 0x18 tag (toBytes 1 n ++ toBytes 8 0))
        = .next (s.reply 0x98 tag [0x00] { s.device with
            work := { s.device.work with conditionMap := s.device.work.conditionMap.put none n none } }))
    ∧ (∀ (cls : FaultClass) (p : Policy), 10 ≤ p.retryTime → p.retryTime ≤ 3600 → 1 ≤ p.limit → p.limit ≤ 7 →
      1 ≤ p.window → p.window ≤ 1440 → 15 ≤ p.response → p.response ≤ 1440 →
      exec .setFaultPolicy (s.offer 0x19 tag (toBytes 1 cls.number ++ toBytes 1 p.mode.number
        ++ [boolByte p.callout] ++ toBytes 2 p.retryTime ++ toBytes 1 p.limit ++ toBytes 2 p.window
        ++ toBytes 2 p.response))
        = .next (s.reply 0x99 tag [0x00] { s.device with
            work := { s.device.work with policies := s.device.work.policies.set p cls } }))

/-- SET CREDENTIAL with the guard OPEN: a token that no other entry holds is bound to the account's TOKEN 1 or
TOKEN 2 entry, and a digest to an account with PIN_REQUIRED set; a token that another entry holds is answered DUPLICATE, and
a digest for an account with PIN_REQUIRED clear STATE; ERASE CREDENTIAL erases one entry or all three; each taken one answers
OK and changes nothing else. With the guard FROZEN both are answered LOCKED. An account above 4095, a selector that names no
entry and a token of 0 give BAD_FIELD whatever the guard says. SET GUARD with the guard latch clear writes the guard record
and, with its last field yes, sets the latch; behind the latch every body of four bytes is answered LOCKED (R70, R71, R72,
R73). The two-valued bytes are numbered by log entries 5 and 9. -/
def Obligations.CredentialAndGuardRequestsWriteOneRecord : Prop :=
  ∀ (s : State) (tag : Byte) (n : Nat), s.device.running = true → s.device.saving = false → n < 4096 →
    (s.device.work.guard.frozen = false →
      (∀ v : BitVec 64, v ≠ 0 → s.device.work.credentials.wf {} = true →
        (∀ m, (s.device.credentials m).token2 ≠ some v ∧ ((s.device.credentials m).token1 = some v → m = n)) →
        exec .setCredential (s.offer 0x2A tag (toBytes 2 n ++ toBytes 1 0 ++ toBytes 8 v.toNat))
          = .next (s.reply 0xAA tag [0x00] { s.device with work := { s.device.work with
              credentials := s.device.work.credentials.put {} n
                { s.device.credentials n with token1 := some v } } }))
      ∧ (∀ v : BitVec 64, v ≠ 0 → s.device.work.credentials.wf {} = true →
        (∀ m, (s.device.credentials m).token1 ≠ some v ∧ ((s.device.credentials m).token2 = some v → m = n)) →
        exec .setCredential (s.offer 0x2A tag (toBytes 2 n ++ toBytes 1 1 ++ toBytes 8 v.toNat))
          = .next (s.reply 0xAA tag [0x00] { s.device with work := { s.device.work with
              credentials := s.device.work.credentials.put {} n
                { s.device.credentials n with token2 := some v } } }))
      ∧ (∀ g : BitVec 32, (s.device.accountSettings n).pinRequired = true →
        exec .setCredential (s.offer 0x2A tag (toBytes 2 n ++ toBytes 1 2 ++ toBytes 4 g.toNat))
          = .next (s.reply 0xAA tag [0x00] { s.device with work := { s.device.work with
              credentials := s.device.work.credentials.put {} n
                { s.device.credentials n with digest := some g } } }))
      ∧ (∀ g : BitVec 32, (s.device.accountSettings n).pinRequired = false →
        exec .setCredential (s.offer 0x2A tag (toBytes 2 n ++ toBytes 1 2 ++ toBytes 4 g.toNat))
          = .next (s.reply 0xAA tag [0x05] s.device))
      ∧ (∀ (sel m : Nat) (v : BitVec 64), sel < 2 → v ≠ 0 →
        ((s.device.credentials m).token1 = some v ∧ (m ≠ n ∨ sel ≠ 0)
          ∨ (s.device.credentials m).token2 = some v ∧ (m ≠ n ∨ sel ≠ 1)) →
        exec .setCredential (s.offer 0x2A tag (toBytes 2 n ++ toBytes 1 sel ++ toBytes 8 v.toNat))
          = .next (s.reply 0xAA tag [0x07] s.device))
      ∧ (∀ (sel : Nat) (c : Credentials), (sel, c) ∈ [(0, { s.device.credentials n with token1 := none }),
          (1, { s.device.credentials n with token2 := none }),
          (2, { s.device.credentials n with digest := none }), (3, {})] →
        exec .eraseCredential (s.offer 0x2B tag (toBytes 2 n ++ toBytes 1 sel))
          = .next (s.reply 0xAB tag [0x00] { s.device with work := { s.device.work with
              credentials := s.device.work.credentials.put {} n c } })))
    ∧ (s.device.work.guard.frozen = true →
      (∀ g : BitVec 32, exec .setCredential (s.offer 0x2A tag (toBytes 2 n ++ toBytes 1 2 ++ toBytes 4 g.toNat))
        = .next (s.reply 0xAA tag [0x08] s.device))
      ∧ (∀ (sel : Nat) (v : BitVec 64), sel < 2 → v ≠ 0 →
        exec .setCredential (s.offer 0x2A tag (toBytes 2 n ++ toBytes 1 sel ++ toBytes 8 v.toNat))
          = .next (s.reply 0xAA tag [0x08] s.device))
      ∧ (∀ sel : Nat, sel < 4 → exec .eraseCredential (s.offer 0x2B tag (toBytes 2 n ++ toBytes 1 sel))
        = .next (s.reply 0xAB tag [0x08] s.device)))
    ∧ (∀ (a sel : Nat) (v : BitVec 64), a < 65536 → sel < 256 →
      let refused := fun value : List Byte => exec .setCredential (s.offer 0x2A tag (toBytes 2 a ++ toBytes 1 sel ++ value))
        = .next (s.reply 0xAA tag [0x03] s.device)
      (sel < 2 → 4096 ≤ a ∨ v = 0 → refused (toBytes 8 v.toNat))
      ∧ (sel = 2 → 4096 ≤ a → ∀ g : BitVec 32, refused (toBytes 4 g.toNat))
      ∧ (2 < sel → ∀ value, refused value)
      ∧ (4096 ≤ a ∨ 3 < sel → exec .eraseCredential (s.offer 0x2B tag (toBytes 2 a ++ toBytes 1 sel))
        = .next (s.reply 0xAB tag [0x03] s.device)))
    ∧ (∀ (g : Guard) (latch : Bool),
      1 ≤ g.failureLimit → g.failureLimit ≤ 15 → 1 ≤ g.lockoutMinutes → g.lockoutMinutes ≤ 240 →
    (s.device.guardLatch = false →
      exec .setGuard (s.offer 0x2C tag ([if g.frozen then 1 else 0] ++ toBytes 1 g.failureLimit
        ++ toBytes 1 g.lockoutMinutes ++ [boolByte latch]))
        = .next (s.reply 0xAC tag [0x00] { s.device with
            work := { s.device.work with guard := g }, guardLatch := latch }))
    ∧ (s.device.guardLatch = true → ∀ a b c e : Byte,
      exec .setGuard (s.offer 0x2C tag [a, b, c, e]) = .next (s.reply 0xAC tag [0x08] s.device)))

/-- SET TENANT that deactivates nobody writes the tenant's record and changes nothing else; so does SET ACCOUNT
when it does not change the tenant of a person with tickets in flight, takes no PIN requirement away while a digest is
held, and leaves the account usable if it was (R61, R62, R64, R66, R68, R69). The two-valued bytes are log entry 5. -/
def Obligations.TenantAndAccountRequestsWriteOneRecord : Prop :=
  ∀ (s : State) (tag : Byte), s.device.running = true → s.device.saving = false →
    (∀ (n : Nat) (r : TenantSettings), n < 64 → r.allowance < 2 ^ 32 → 1 ≤ r.holdHours → r.holdHours ≤ 72 →
      ((s.device.tenantSettings n).active = true → r.active = true) →
      exec .setTenant (s.offer 0x28 tag (toBytes 1 n ++ [boolByte r.active] ++ toBytes 4 r.allowance
        ++ [boolByte r.colour] ++ toBytes 1 r.holdHours))
        = .next (s.reply 0xA8 tag [0x00] { s.device with
            work := { s.device.work with tenants := s.device.work.tenants.put {} n r } }))
    ∧ (∀ (n : Nat) (r : AccountSettings), n < 4096 → r.tenant < 64 → r.allowance < 2 ^ 32 → 1 ≤ r.heldLimit →
      r.heldLimit ≤ 64 → s.device.canonical →
      ((s.device.accountSettings n).active = true → r.active = true) →
      ((s.device.accountSettings n).tenant ≠ r.tenant →
        ∀ k t, s.device.ticket k = some t → t.owner = n → t.phase = .held) →
      ((s.device.accountSettings n).pinRequired = true → r.pinRequired = false →
        (s.device.credentials n).digest = none) →
      (s.device.usable n = true → (s.device.tenantSettings r.tenant).active = true) →
      exec .setAccount (s.offer 0x29 tag (toBytes 2 n ++ [boolByte r.active] ++ toBytes 1 r.tenant
        ++ toBytes 1 r.role.number ++ toBytes 4 r.allowance ++ [boolByte r.colour]
        ++ [boolByte r.pinRequired] ++ toBytes 1 r.heldLimit))
        = .next (s.reply 0xA9 tag [0x00] { s.device with
            work := { s.device.work with accounts := s.device.work.accounts.put {} n r } }))

/-- A deactivation is refused with STATE and the number of tickets in flight while the account, or an account of the
tenant, has a ticket QUEUED or PRINTING, and so is a move of the account to another tenant; nothing changes. A deactivation
taken, by SET ACCOUNT or by SET TENANT, writes the record; every HELD ticket of the account, or of the tenant's accounts,
leaves the store with reason DEACTIVATED in the removal list, its owner's held count falls by 1, every other ticket stays
(an account that is locked, or whose tenant is inactive, is no exception), and no terminal that is PRESENT keeps a session of an account that was usable; other terminals keep their records. A usable
account moved to an inactive tenant keeps its HELD tickets and loses its sessions (R64, R67, R69, R98, R103, R139). The
two-valued bytes are log entry 5, the order in which tickets leave log entry 25. -/
def Obligations.DeactivationRemovesHeldTicketsAndSessions : Prop :=
  (∀ (s : State) (tag : Byte) (k : Nat) (t : Ticket), s.device.running = true → s.device.saving = false →
    s.device.canonical → s.device.ticket k = some t → t.phase ≠ .held →
    (∀ (n : Nat) (r : TenantSettings), n < 64 → r.allowance < 2 ^ 32 → 1 ≤ r.holdHours → r.holdHours ≤ 72 →
      (s.device.tenantSettings n).active = true → r.active = false →
      (s.device.accountSettings t.owner).tenant = n →
      exec .setTenant (s.offer 0x28 tag (toBytes 1 n ++ [boolByte r.active] ++ toBytes 4 r.allowance
        ++ [boolByte r.colour] ++ toBytes 1 r.holdHours))
        = .next (s.reply 0xA8 tag (0x05 :: toBytes 2 (s.device.inFlightCount fun a =>
            (s.device.accountSettings a).tenant = n)) s.device))
    ∧ (∀ r : AccountSettings, t.owner < 4096 → r.tenant < 64 → r.allowance < 2 ^ 32 → 1 ≤ r.heldLimit →
      r.heldLimit ≤ 64 → ((s.device.accountSettings t.owner).active = true ∧ r.active = false
        ∨ (s.device.accountSettings t.owner).tenant ≠ r.tenant) →
      ((s.device.accountSettings t.owner).pinRequired = true → r.pinRequired = false →
        (s.device.credentials t.owner).digest = none) →
      exec .setAccount (s.offer 0x29 tag (toBytes 2 t.owner ++ [boolByte r.active]
        ++ toBytes 1 r.tenant ++ toBytes 1 r.role.number ++ toBytes 4 r.allowance ++ [boolByte r.colour]
        ++ [boolByte r.pinRequired] ++ toBytes 1 r.heldLimit))
        = .next (s.reply 0xA9 tag (0x05 :: toBytes 1 (s.device.inFlightCount (· = t.owner))) s.device)))
  ∧ ∀ (s : State) (tag : Byte) (n : Nat), s.device.running = true → s.device.saving = false → s.device.canonical →
    let d := s.device
    let leaves := fun (e : Device) (mine : Nat → Bool) =>
      let gone := d.ticketList.filter fun x => mine x.2.owner
      let listed := gone.foldl (fun d x => d.addRemoval ⟨x.2.jobId, x.2.owner, x.1, .deactivated, none, d.uptime⟩) d
      (∀ k, e.ticket k = (d.ticket k).filter fun t => !mine t.owner)
        ∧ e.removals = listed.removals ∧ e.removalsDropped = listed.removalsDropped
        ∧ (∀ a, e.accountTotals a = { d.accountTotals a with
            held := (d.accountTotals a).held - gone.countP fun x => x.2.owner = a })
        ∧ (∀ i a, i < 128 → (e.terminal i).presence = .present → mine a = true → d.usable a = true →
          (e.terminal i).session.account ≠ some a)
        ∧ (∀ i, (∀ a, (d.terminal i).session.account = some a → mine a = false) → e.terminal i = d.terminal i)
        ∧ e.queues = d.queues ∧ e.printers = d.printers ∧ e.grants = d.grants ∧ e.tenants = d.tenants
        ∧ e.orders = d.orders ∧ e.stock = d.stock ∧ e.callouts = d.callouts ∧ e.lines = d.lines
    (∀ r : TenantSettings, n < 64 → r.allowance < 2 ^ 32 → 1 ≤ r.holdHours → r.holdHours ≤ 72 →
      (d.tenantSettings n).active = true → r.active = false →
      (∀ k t, d.ticket k = some t → (d.accountSettings t.owner).tenant = n → t.phase = .held) →
      ∃ e, exec .setTenant (s.offer 0x28 tag (toBytes 1 n ++ [boolByte r.active] ++ toBytes 4 r.allowance
          ++ [boolByte r.colour] ++ toBytes 1 r.holdHours)) = .next (s.reply 0xA8 tag [0x00] e)
        ∧ e.ground = { d.ground with work := { d.work with tenants := d.work.tenants.put {} n r } }
        ∧ leaves e fun a => (d.accountSettings a).tenant = n)
    ∧ ∀ r : AccountSettings, n < 4096 → r.tenant < 64 → r.allowance < 2 ^ 32 → 1 ≤ r.heldLimit → r.heldLimit ≤ 64 →
      ((d.accountSettings n).pinRequired = true → r.pinRequired = false → (d.credentials n).digest = none) →
      (∀ k t, d.ticket k = some t → t.owner = n → t.phase = .held) →
      let sent := exec .setAccount (s.offer 0x29 tag (toBytes 2 n ++ [boolByte r.active] ++ toBytes 1 r.tenant
        ++ toBytes 1 r.role.number ++ toBytes 4 r.allowance ++ [boolByte r.colour] ++ [boolByte r.pinRequired]
        ++ toBytes 1 r.heldLimit))
      let written := { d.work with accounts := d.work.accounts.put {} n r }
      ((d.accountSettings n).active = true → r.active = false → ∃ e, sent = .next (s.reply 0xA9 tag [0x00] e)
        ∧ e.ground = { d.ground with work := written } ∧ leaves e fun a => a = n)
      ∧ (d.usable n = true → r.active = true → (d.tenantSettings r.tenant).active = false →
        ∃ terminals, sent = .next (s.reply 0xA9 tag [0x00] { d with work := written, terminals := terminals })
          ∧ ∀ i, (i < 128 → (terminals.get {} i).presence = .present → (terminals.get {} i).session.account ≠ some n)
            ∧ ((d.terminal i).session.account ≠ some n → terminals.get {} i = d.terminal i))

/-- SET JOB LIMITS writes its two values and SET LINE one line record. While no running stall timing has run out under
the new stall time, and the line is not pausing or stays QUIET, nothing else changes; a changed stall time under which a
stall has run out makes STALL of that printer active at once, slot by slot in rising order (log entry 55), and a pausing
line set to ACTIVE ends its pause and begins the next cycle (R10, R119, R124, R126). Mode ACTIVE as byte 0 is log entry
9's numbering. SET FORECAST writes the whole forecast record; the other settings, the clocks, the store and the floor
lines stay as they are. A changed floor judges the last sample of each channel of its kind at each configured printer
again, an absent one clear, and CONSUMPTION is handed again where a channel changed; a changed low-supply warning judges
low again and raises SUPPLY_LOW for a printer that becomes low; slots in rising order, the warning first (log entry 12).
Where floors and warning keep their values, only the next-rollover instant can change beside the record, and only with
the rollover hour: it is then set afresh to the first time after the clock at which the time of day is the new hour, here
where the clock does not wrap before it, and absent while the clock is invalid (R148, R151, R152, R154). STALL active, fault records kept
where no channel changed, and the stamps of SUPPLY_LOW are stated where every configured slot is below 128, as SET PRINTER
leaves them (R14), and the first two with the release queues in step (`StepKeepsQueuesInStep`). -/
def Obligations.LimitLineAndForecastRequestsWriteOneRecord : Prop :=
  ∀ (s : State) (tag : Byte), s.device.running = true → s.device.saving = false →
    (∀ timeout stall : Nat, 1 ≤ timeout → timeout ≤ 120 → 60 ≤ stall → stall ≤ 1800 →
      (∀ p t, (s.device.printer p).lastAdvance = some t → passed s.device.uptime (after t stall) = false) →
      exec .setJobLimits (s.offer 0x45 tag (toBytes 1 timeout ++ toBytes 2 stall))
        = .next (s.reply 0xC5 tag [0x00] { s.device with
            work := { s.device.work with completionMinutes := timeout, stallTime := stall } }))
    ∧ (∀ timeout stall : Nat, 1 ≤ timeout → timeout ≤ 120 → 60 ≤ stall → stall ≤ 1800 →
      let d := s.device
      let ranOut := fun (x : Device) (p : Nat) =>
        (x.printer p).lastAdvance.any fun t => passed d.uptime (after t stall)
      let set : Device := { d with work := { d.work with completionMinutes := timeout, stallTime := stall } }
      ∃ e, exec .setJobLimits (s.offer 0x45 tag (toBytes 1 timeout ++ toBytes 2 stall)) = .next (s.reply 0xC5 tag [0x00] e)
        ∧ (stall = d.work.stallTime → e = set)
        ∧ (stall ≠ d.work.stallTime →
          e = (List.range 128).foldl (fun x p =>
            if ranOut x p then x.handedOn (x.hand p .stall true) p else x) set
          ∧ (d.queuesInStep → (∀ q, d.configured q = true → q < 128) → ∀ p, p < 128 → d.live p = true →
            (d.printer p).inService = false ∨ d.derived p → ranOut d p = true →
            (e.fault p .stall).active = true ∧ (e.printer p).derived = e.derive p)))
    ∧ (∀ (line : Nat) (r : LineSettings), line < 4 → 15 ≤ r.idleTimeout → r.idleTimeout ≤ 120 →
      ((∃ x, (s.device.line line).phase = .pausing x) → r.quiet = true) →
      exec .setLine (s.offer 0x49 tag (toBytes 1 line ++ [if r.quiet then 1 else 0] ++ toBytes 1 r.idleTimeout))
        = .next (s.reply 0xC9 tag [0x00] { s.device with
            work := { s.device.work with lines := s.device.work.lines.put {} line r } }))
    ∧ (∀ (line : Nat) (r : LineSettings) (x : Time), line < 4 → 15 ≤ r.idleTimeout → r.idleTimeout ≤ 120 →
      (s.device.line line).phase = .pausing x → r.quiet = false →
      let d : Device := { s.device with work := { s.device.work with lines := s.device.work.lines.put {} line r } }
      let conf := fun b : Nat => 1 ≤ b ∧ b ≤ 32 ∧ (d.terminalSettings (line * 32 + b - 1)).configured = true
      let cycles := (d.line line).cycles
      let leaves := fun e : Device => exec .setLine
        (s.offer 0x49 tag (toBytes 1 line ++ [0] ++ toBytes 1 r.idleTimeout)) = .next (s.reply 0xC9 tag [0x00] e)
      (∀ b, conf b → (∀ c, c < b → ¬ conf c) → leaves (d.polls line b cycles))
      ∧ ((∀ b, ¬ conf b) → leaves { d with lines := d.lines.put {} line ⟨.silent, cycles⟩ }))
    ∧ (∀ r : ForecastSettings, r.shift ≤ 6 → r.dayShift ≤ 4 → 20 ≤ r.swap → r.swap ≤ 80 → r.lowWarning ≤ 30 → r.floorK < 65536 →
    r.floorColour < 65536 → r.floorDrum < 65536 → r.floorWaste < 65536 → r.rolloverHour ≤ 23 →
    ∃ e, exec .setForecast (s.offer 0x50 tag (toBytes 1 r.shift ++ toBytes 1 r.dayShift ++ toBytes 1 r.swap
        ++ toBytes 1 r.lowWarning ++ toBytes 2 r.floorK ++ toBytes 2 r.floorColour ++ toBytes 2 r.floorDrum
        ++ toBytes 2 r.floorWaste ++ toBytes 1 r.rolloverHour)) = .next (s.reply 0xD0 tag [0x00] e)
      ∧ e.ground = { s.device.ground with work := { s.device.work with forecast := r } }
      ∧ e.terminals = s.device.terminals ∧ e.lines = s.device.lines
      ∧ (let d := s.device
        let old := d.work.forecast
        let set : Device := { d with work := { d.work with forecast := r } }
        let judged := fun (p : Nat) (ch : Channel) =>
          if r.floor ch = old.floor ch then d.forecast p ch
          else { d.forecast p ch with consuming := (d.forecast p ch).lastSample.any fun x => x < r.floor ch }
        let low := fun p => ∃ ch days, (d.settings p).channels.get ch = true ∧ (d.forecast p ch).days = some days
          ∧ days ≤ r.lowWarning
        let inRange := ∀ q, d.configured q = true → q < 128
        let warned := if r.lowWarning = old.lowWarning then set
          else d.configuredSlots.foldl (fun x p => x.evaluateSupplyFlags p) set
        (∀ p ch, e.forecast p ch = if d.configured p then judged p ch else d.forecast p ch)
        ∧ (∀ p, d.live p = true → (∃ ch, e.forecast p ch ≠ d.forecast p ch) →
          ((e.fault p .consumption).active = true ↔ ∃ ch, (e.forecast p ch).consuming = true)
          ∧ (e.printer p).derived = e.derive p)
        ∧ (inRange → d.queuesInStep → ∀ p, (∀ ch, e.forecast p ch = d.forecast p ch) →
          ∀ cls, e.fault p cls = d.fault p cls)
        ∧ (inRange → ∀ p, p < 128 → d.live p = true → r.lowWarning ≠ old.lowWarning →
          ((e.printer p).low = true ↔ low p)
          ∧ ((d.printer p).low = false → low p → d.enabled .supplyLow = true → e.stamp .supplyLow p ≠ none)
          ∧ ((d.printer p).low = true ∨ ¬ low p → e.stamp .supplyLow p = d.stamp .supplyLow p))
        ∧ (r.lowWarning = old.lowWarning → (∀ p, (e.printer p).low = (d.printer p).low)
          ∧ (inRange → ∀ p, p < 128 → e.stamp .supplyLow p = d.stamp .supplyLow p))
        ∧ e = { d.configuredSlots.foldl (fun x p =>
            if Channel.all.all fun ch => judged p ch = x.forecast p ch then x
            else x.handedOn (({ x with printers := x.printers.put {} p { x.printer p with
                forecasts := ByChannel.ofFn (judged p) } } : Device).hand p .consumption
              (Channel.all.any fun ch => (judged p ch).consuming)) p) warned with nextRollover := e.nextRollover })
      ∧ ((∀ ch, r.floor ch = s.device.work.forecast.floor ch) →
        r.lowWarning = s.device.work.forecast.lowWarning →
        ∃ next, e = { s.device with work := { s.device.work with forecast := r }, nextRollover := next }
          ∧ (r.rolloverHour = s.device.work.forecast.rolloverHour → next = s.device.nextRollover)
          ∧ (r.rolloverHour ≠ s.device.work.forecast.rolloverHour → s.device.wallValid = false → next = none)
          ∧ (r.rolloverHour ≠ s.device.work.forecast.rolloverHour → s.device.wallValid = true →
            s.device.wall.toNat + 86400 < 2 ^ 32 → ∃ x, next = some x ∧ x.toNat % 86400 = r.rolloverHour * 3600
              ∧ s.device.wall.toNat < x.toNat ∧ x.toNat ≤ s.device.wall.toNat + 86400)))

/-- SET TERMINAL writes the settings record of its position. A position that becomes configured or unconfigured takes
its initial runtime values; a record that writes the values held changes nothing; a JOINING or PRESENT terminal moved to
another printer, or given an expected serial that is not its joined serial, takes its initial values, and any other change
leaves the runtime record as it is, that of an ABSENT terminal always. Nothing else changes, but that a line without a
configured address begins a cycle with a POLL to the address that becomes configured (R126 to R128, R140). The configured
byte is log entry 5; that a pausing line without a configured address begins so too is log entry 36. -/
def Obligations.SetTerminalWritesOnePosition : Prop :=
  ∀ (s : State) (tag : Byte) (line address : Nat) (r : TerminalSettings), s.device.running = true →
    s.device.saving = false → line < 4 → 1 ≤ address → address ≤ 32 → r.printer < 128 →
    r.expected ≠ some 0 → (∀ n, r.expected = some n → n < 2 ^ 32) →
    let d := s.device
    let i := terminalIndex line address
    let was := d.terminalSettings i
    let body := toBytes 1 line ++ toBytes 1 address ++ [boolByte r.configured] ++ toBytes 1 r.printer
      ++ optBytes 4 r.expected
    let written := { d.work with terminals := d.work.terminals.put {} i r }
    let conf := fun b : Nat => 1 ≤ b ∧ b ≤ 32 ∧ (d.terminalSettings (terminalIndex line b)).configured = true
    ((∃ a m, (d.line line).phase = .polling a m) ∨ was.configured = true ∨ r.configured = false
      ∨ ((∃ x, (d.line line).phase = .pausing x) ∧ ∃ b, conf b) →
      ∃ t, exec .setTerminal (s.offer 0x48 tag body)
          = .next (s.reply 0xC8 tag [0x00] { d with work := written, terminals := t })
        ∧ (∀ j, j ≠ i → t.get {} j = d.terminal j)
        ∧ (was.configured ≠ r.configured → t.get {} i = {})
        ∧ (was = r → t.get {} i = d.terminal i)
        ∧ (was.configured = true → r.configured = true →
          ((d.terminal i).presence = .absent → t.get {} i = d.terminal i)
          ∧ ((d.terminal i).presence ≠ .absent →
            (was.printer ≠ r.printer → t.get {} i = {})
            ∧ (was.printer = r.printer →
              (was.expected ≠ r.expected → r.expected ≠ none → (d.terminal i).joinedSerial ≠ r.expected → t.get {} i = {})
              ∧ (was.expected = r.expected ∨ r.expected = none ∨ (d.terminal i).joinedSerial = r.expected →
                t.get {} i = d.terminal i)))))
    ∧ (was.configured = false → r.configured = true → (∀ b, ¬ conf b) →
      (d.line line).phase = .silent ∨ (∃ x, (d.line line).phase = .pausing x) →
      exec .setTerminal (s.offer 0x48 tag body) = .next (s.reply 0xC8 tag [0x00] { d with
        work := written
        terminals := d.terminals.put {} i {}
        lines := d.lines.put {} line { d.line line with phase := .polling address (.poll false false none) } }))

/-- SET STOCK KIND writes the record. A kind that becomes configured or unconfigured starts from on hand 0 without a
hold, and one that stays configured keeps its count and loses its hold; a record that writes the values held changes
nothing; unconfiguring a kind that has an order in use is refused with STATE (R159, R160). Where the kind's position
does not lie below its reorder point no order is proposed and nothing else changes (R161). The configured byte is log
entry 5. -/
def Obligations.SetStockKindWritesOneKind : Prop :=
  ∀ (s : State) (tag : Byte) (n : Nat) (r : KindSettings), s.device.running = true → s.device.saving = false →
    n < 16 → r.supplier < 2 ^ 32 → r.reorderPoint < r.orderUpTo → r.orderUpTo < 256 → 1 ≤ r.packSize →
    r.packSize ≤ 24 → 1 ≤ r.leadTime → r.leadTime ≤ 60 → r.grace ≤ 30 →
    let body := toBytes 1 n ++ [boolByte r.configured] ++ toBytes 4 r.supplier ++ toBytes 1 r.reorderPoint
      ++ toBytes 1 r.orderUpTo ++ toBytes 1 r.packSize ++ toBytes 1 r.leadTime ++ toBytes 1 r.grace
    let written := { s.device.work with kinds := s.device.work.kinds.put {} n r }
    (s.device.kindSettings n = r → exec .setStockKind (s.offer 0x58 tag body)
      = .next (s.reply 0xD8 tag [0x00] s.device))
    ∧ (s.device.kindSettings n ≠ r → r.configured = false →
      ((s.device.kindSettings n).configured = true → s.device.ordersOf n = []) →
      exec .setStockKind (s.offer 0x58 tag body) = .next (s.reply 0xD8 tag [0x00] { s.device with
        work := written, stock := s.device.stock.put {} n {} }))
    ∧ ((s.device.kindSettings n).configured = true → r.configured = false → s.device.ordersOf n ≠ [] →
      exec .setStockKind (s.offer 0x58 tag body) = .next (s.reply 0xD8 tag [0x05] s.device))
    ∧ (s.device.kindSettings n ≠ r → r.configured = true →
      let k : Kind := if (s.device.kindSettings n).configured then { s.device.kind n with hold := false } else {}
      (r.reorderPoint : Int) ≤ (k.onHand : Int) + s.device.onOrder n
        - ({ s.device with work := written } : Device).demand n →
      exec .setStockKind (s.offer 0x58 tag body) = .next (s.reply 0xD8 tag [0x00] { s.device with
        work := written, stock := s.device.stock.put {} n { k with blocked := false } }))

/-! ## Printers -/

/-- SET PRINTER writes the slot's record. A slot that becomes configured takes its initial runtime values with the
silence deadline one report interval away and is ONLINE; a record that writes the values held changes nothing; one that
leaves an unconfigured slot disabled changes the settings alone; a configured slot is disabled only when it is RETIRED
and no ticket targets it, and then takes its initial values, and is refused with STATE otherwise. A changed record on a slot
that stays configured is written: a change of class, group or name alone changes nothing else; a channel that joins or leaves
the set takes its initial forecast record and loses its mark, and the others keep theirs; a changed report interval restarts
the silence deadline of a live printer; each kind whose demand moved is evaluated, in ascending number (log entry 45); SILENCE
follows a changed missed limit, SERVICE_DUE a changed service interval,
SUPPLY_EMPTY and CONSUMPTION a changed channel set, and no other class (STALL where the stored state was current: a state
not derived yet can end the PRINTING ticket, and STALL with it); and the state is derived again (R2, R3, R9, R11, R12,
R14 to R16, R27, R148, R160, R161). The body's bytes rest on log entries 5 (enabled), 6 (channel set) and 30 (absent name). -/
def Obligations.SetPrinterConfiguresItsSlot : Prop :=
  ∀ (s : State) (tag : Byte) (p : Nat) (r : PrinterSettings), s.device.running = true →
    s.device.saving = false → p < 128 → r.rateClass < 8 → r.group ≤ 31 →
    (∀ t, r.name = some t → 1 ≤ t.length ∧ t.length ≤ 16 ∧ t.all isChar = true) →
    (∀ ch k, r.kinds.get ch = some k → k < 16) → 10 ≤ r.reportInterval → r.reportInterval ≤ 600 →
    1 ≤ r.missedLimit → r.missedLimit ≤ 15 → r.serviceInterval < 65536 →
    let body := toBytes 1 p ++ printerSettingsBytes r
    let written := { s.device.work with printers := s.device.work.printers.put {} p r }
    (s.device.configured p = false → r.enabled = false →
      exec .setPrinter (s.offer 0x10 tag body) = .next (s.reply 0x90 tag [0x00] { s.device with work := written }))
    ∧ (s.device.configured p = false → r.enabled = true →
      ∃ e, exec .setPrinter (s.offer 0x10 tag body) = .next (s.reply 0x90 tag [0x00] e)
        ∧ e.ground = { s.device.ground with work := written }
        ∧ e.printer p = { derived := .online, silenceDeadline := some (after s.device.uptime r.reportInterval) }
        ∧ e.terminals = s.device.terminals ∧ e.lines = s.device.lines)
    ∧ (s.device.settings p = r → r.enabled = true →
      exec .setPrinter (s.offer 0x10 tag body) = .next (s.reply 0x90 tag [0x00] s.device))
    ∧ (s.device.configured p = true → r.enabled = true → s.device.settings p ≠ r →
      let was := s.device.settings p
      let x := s.device.printer p
      let active := fun cls => (s.device.fault p cls).active
      ∃ e, exec .setPrinter (s.offer 0x10 tag body) = .next (s.reply 0x90 tag [0x00] e)
        ∧ e.ground = { s.device.ground with work := written }
        ∧ e.terminals = s.device.terminals ∧ e.lines = s.device.lines
        ∧ (r = { was with rateClass := r.rateClass, group := r.group, name := r.name } → s.device.canonical →
          s.device.derived p → e = { s.device with work := written })
        ∧ (∀ ch, e.forecast p ch = (if r.channels.get ch = was.channels.get ch then s.device.forecast p ch else {})
          ∧ (e.printer p).marks.get ch = (decide (r.channels.get ch = was.channels.get ch) && x.marks.get ch))
        ∧ (e.printer p).counters = { x.counters with
            silenceDeadline := if r.reportInterval = was.reportInterval ∨ x.retired = true then x.silenceDeadline
              else some (after s.device.uptime r.reportInterval) }
        ∧ (∀ q, q ≠ p → (e.printer q).counters = (s.device.printer q).counters)
        ∧ (∀ k, (e.kind k).onHand = (s.device.kind k).onHand)
        ∧ (s.device.canonical → (∀ q, s.device.configured q = true → q < 128) →
          e.stocksAs (({ s.device with work := written, printers := e.printers } : Device).evaluatedAt
            (s.device.demandDiffers e)))
        ∧ (x.retired = true → ∀ cls, (e.fault p cls).active = active cls)
        ∧ (x.retired = false →
          ((e.fault p .silence).active = true ↔ if r.missedLimit = was.missedLimit then active .silence = true
            else r.missedLimit ≤ x.missed)
          ∧ ((e.fault p .serviceDue).active = true ↔ if r.serviceInterval = was.serviceInterval then active .serviceDue = true
            else r.serviceInterval ≠ 0 ∧ r.serviceInterval * 1000 ≤ x.sinceService)
          ∧ ((e.fault p .supplyEmpty).active = true ↔ if r.channels = was.channels then active .supplyEmpty = true
            else ∃ ch, (ch = .k ∨ ch = .drum ∨ ch = .waste) ∧ r.channels.get ch = true ∧ (e.forecast p ch).p = some 0)
          ∧ ((e.fault p .consumption).active = true ↔ if r.channels = was.channels then active .consumption = true
            else ∃ ch, (e.forecast p ch).consuming = true)
          ∧ (∀ cls, cls ∉ [.silence, .serviceDue, .supplyEmpty, .consumption, .stall] →
            (e.fault p cls).active = active cls)
          ∧ (s.device.derived p → (e.fault p .stall).active = active .stall)
          ∧ (e.printer p).derived = e.derive p))
    ∧ (s.device.configured p = true → r.enabled = false →
      ((s.device.printer p).retired = false ∨ ∃ n t, s.device.tickets.wf none = true ∧
        s.device.ticket n = some t ∧ t.target = .printer p) →
      exec .setPrinter (s.offer 0x10 tag body) = .next (s.reply 0x90 tag [0x05] s.device))
    ∧ (s.device.configured p = true → r.enabled = false → (s.device.printer p).retired = true →
      s.device.tickets.wf none = true → (∀ n t, s.device.ticket n = some t → t.target ≠ .printer p) →
      s.device.queue p = [] →
      ∃ e, exec .setPrinter (s.offer 0x10 tag body) = .next (s.reply 0x90 tag [0x00] e)
        ∧ e.ground = { s.device.ground with work := written } ∧ e.printer p = {}
        ∧ e.terminals = s.device.terminals ∧ e.lines = s.device.lines)

/-- RETIRE PRINTER on a configured slot with an empty queue: the retired flag is set, the in-service flag cleared, the
silence timing stopped, every fault record and absence mark cleared, the derived state is RETIRED, the printer leaves
the pending list, each kind whose demand moved is evaluated, in ascending number (log entry 45), and the totals and
accumulators are kept. With no printer waiting for the grant queue, each ticket that
targets the slot is retargeted to its release group and keeps its other fields; the printer's only callout record is
freed and goes to the first pending printer that needs it. A retired slot and a slot with tickets in its queue are refused with STATE, an unconfigured
one with NOT_FOUND, and a slot above 127 with BAD_FIELD (R9, R17, R25, R160, R161). That every field of the fault records is reset is
log entry 16. -/
def Obligations.RetirePrinterTakesThePrinterOut : Prop :=
  ∀ (s : State) (tag : Byte) (p : Nat), s.device.running = true → p < 256 →
    (128 ≤ p → exec .retirePrinter (s.offer 0x11 tag (toBytes 1 p)) = .next (s.reply 0x91 tag [0x03] s.device))
    ∧ (p < 128 → s.device.configured p = false →
      exec .retirePrinter (s.offer 0x11 tag (toBytes 1 p)) = .next (s.reply 0x91 tag [0x04] s.device))
    ∧ (p < 128 → s.device.configured p = true → (s.device.printer p).retired = true ∨ s.device.queue p ≠ [] →
      exec .retirePrinter (s.offer 0x11 tag (toBytes 1 p)) = .next (s.reply 0x91 tag [0x05] s.device))
    ∧ (p < 128 → s.device.live p = true → s.device.queue p = [] →
      ∃ e, exec .retirePrinter (s.offer 0x11 tag (toBytes 1 p)) = .next (s.reply 0x91 tag [0x00] e)
        ∧ e.ground = s.device.ground ∧ e.terminals = s.device.terminals ∧ e.lines = s.device.lines
        ∧ (e.printer p).counters = { (s.device.printer p).counters with
            retired := true, inService := false, missed := 0, silenceDeadline := none }
        ∧ (∀ q, q ≠ p → (e.printer q).counters = (s.device.printer q).counters)
        ∧ (e.printer p).derived = .retired ∧ (∀ cls, e.fault p cls = {})
        ∧ (∀ ch, (e.printer p).marks.get ch = false) ∧ e.isPending p = false
        ∧ (s.device.canonical → (∀ q, s.device.configured q = true → q < 128) →
          e.stocksAs (({ s.device with printers := e.printers } : Device).evaluatedAt (s.device.demandDiffers e)))
        ∧ (s.device.waiting = [] → s.device.tickets.wf none = true →
          ∀ n, e.ticket n = (s.device.ticket n).map fun t =>
            if t.target = .printer p then { t with target := .group (s.device.settings p).group } else t)
        ∧ (s.device.callouts.wf none = true → ∀ n c, s.device.callout n = some c → c.printer = p →
          (∀ m k, s.device.callout m = some k → k.printer = p → m = n) →
          ({ s.device with pendingList := s.device.pendingList.filter (·.printer ≠ p) } : Device).handsRecordOn e n))

/-- A PRINTER REPORT is checked in the order of R4: a length that does not fit the condition count, or a count above 16,
gives BAD_LENGTH, a slot above 127 and a level of the channel set outside 0 to 100 and 255
give BAD_FIELD, an unconfigured slot NOT_FOUND, a retired one STATE, and none of these has an effect. A taken one: the last
totals take the reported values, the missed count becomes 0 and the silence deadline restarts; the deltas, 0 after no last
totals or a fall of any total, go into the day's accumulators and sides since service, into the last alone while in
SERVICE; another printer's counters, the settings, the clocks and the floor lines stay as they are (R4, R5, R6, R7). -/
def Obligations.ReportMovesTheCounters : Prop :=
  (∀ (s : State) (tag : Byte) (body : List Byte), s.device.running = true →
    body.length ≠ 20 + 2 * (body.getD 19 0).toNat ∨ 16 < (body.getD 19 0).toNat →
    exec .printerReport (s.offer 0x12 tag body) = .next (s.reply 0x92 tag [0x02] s.device))
  ∧ (∀ (s : State) (tag : Byte) (r : Report), s.device.running = true → r.fits →
    let levelsBad := ∃ ch, (s.device.settings r.slot).channels.get ch = true ∧ 100 < r.levels.get ch
      ∧ r.levels.get ch ≠ 255
    (128 ≤ r.slot ∨ levelsBad →
      exec .printerReport (s.offer 0x12 tag r.bytes) = .next (s.reply 0x92 tag [0x03] s.device))
    ∧ (r.slot < 128 → ¬ levelsBad → s.device.configured r.slot = false →
      exec .printerReport (s.offer 0x12 tag r.bytes) = .next (s.reply 0x92 tag [0x04] s.device))
    ∧ (r.slot < 128 → ¬ levelsBad → s.device.configured r.slot = true → (s.device.printer r.slot).retired = true →
      exec .printerReport (s.offer 0x12 tag r.bytes) = .next (s.reply 0x92 tag [0x05] s.device)))
  ∧ ∀ (s : State) (tag : Byte) (r : Report), s.device.running = true → r.fits → r.slot < 128 →
    s.device.live r.slot = true →
    (∀ ch, (s.device.settings r.slot).channels.get ch = true → r.levels.get ch ≤ 100 ∨ r.levels.get ch = 255) →
    let p := s.device.printer r.slot
    let delta : Totals := match p.lastTotals with
      | none => {}
      | some last =>
        if r.totals.mono < last.mono ∨ r.totals.colour < last.colour ∨ r.totals.sheets < last.sheets then {}
        else ⟨r.totals.mono - last.mono, r.totals.colour - last.colour, r.totals.sheets - last.sheets⟩
    ∃ e, exec .printerReport (s.offer 0x12 tag r.bytes) = .next (s.reply 0x92 tag [0x00] e)
      ∧ e.ground = s.device.ground ∧ e.terminals = s.device.terminals ∧ e.lines = s.device.lines
      ∧ (e.printer r.slot).counters = { p.counters with
          lastTotals := some r.totals
          missed := 0
          silenceDeadline := some (after s.device.uptime (s.device.settings r.slot).reportInterval)
          dailyAll := if p.inService then p.dailyAll
            else min 4294967295 (p.dailyAll + (delta.mono + delta.colour))
          dailyColour := if p.inService then p.dailyColour else min 4294967295 (p.dailyColour + delta.colour)
          sinceService := min 4294967295 (p.sinceService + (delta.mono + delta.colour)) }
      ∧ ∀ q, q ≠ r.slot → (e.printer q).counters = (s.device.printer q).counters

/-- What a taken report at a live printer hands on. A fall of any total makes COUNTER_REGRESS active and its absence inactive,
SILENCE becomes inactive, and the PRINTING accumulators take the deltas while a ticket is PRINTING, outside SERVICE. The anchor of each
channel of the set takes its relevant side delta, outside SERVICE alone; a side advance of a timed ticket sets the last-advance time to now
and ends STALL (R5, R6, R7, R10, R145). The condition list, each code belonging to the class of the lowest entry that covers it, else to
OTHER: each mapped class is active exactly when a code belongs to it, a class so activated records the first such code, and another keeps
its code; a channel of the set is marked absent exactly when a code wins an entry of SUPPLY_ABSENT with that channel, P is 0 from a mark set
and Pk again from one cleared, and where the channel's level is UNKNOWN or the channel is marked, nothing else of its record moves but the
anchor and D; a known level of a channel not marked is a first reading, an install, a drop or a small rise on the record with its
anchor moved (R24, R25, R145 to R149). SERVICE_DUE is active exactly when sides since service reach an interval that is
not 0; SUPPLY_EMPTY, CONSUMPTION, low and out, where they agreed with the channels before, agree with them after it, and
SUPPLY_LOW or SUPPLY_OUT is raised for a printer that has become so. The device is what counters, marks, classes and
levels wrote, with each class newly latched then handed to the callout table and the state derived again, once (R7, R11,
R13, R27, R36, R45, R148, R150, R151); that order of the hand-offs is log entry 54. That a class latched under RETRY takes
the code too is log entry 46. -/
def Obligations.ReportHandsRegressAndSilence : Prop :=
  (∀ (d : Device) (r : Report), d.live r.slot = true →
    let p := d.printer r.slot
    let e := d.takeTotals r
    let fell := ∃ last, p.lastTotals = some last ∧
      (r.totals.mono < last.mono ∨ r.totals.colour < last.colour ∨ r.totals.sheets < last.sheets)
    let delta := p.deltas r.totals
    (fell ∨ p.lastTotals = none → delta = {})
    ∧ (∀ last, p.lastTotals = some last → ¬ fell →
      delta = ⟨r.totals.mono - last.mono, r.totals.colour - last.colour, r.totals.sheets - last.sheets⟩)
    ∧ ((e.fault r.slot .counterRegress).active = true ↔ fell)
    ∧ (e.fault r.slot .silence).active = false
    ∧ (p.inService = true ∨ d.printingTicket r.slot = none → (e.printer r.slot).printing = p.printing)
    ∧ (p.inService = false → d.printingTicket r.slot ≠ none →
      (e.printer r.slot).printing = ⟨min 4294967295 (p.printing.mono + delta.mono),
        min 4294967295 (p.printing.colour + delta.colour),
        min 4294967295 (p.printing.sheets + delta.sheets)⟩)
    ∧ (∀ ch, e.forecast r.slot ch =
      if p.inService = false ∧ (d.settings r.slot).channels.get ch = true then
        { d.forecast r.slot ch with anchor := min 4294967295 ((d.forecast r.slot ch).anchor
          + if ch = .c ∨ ch = .m ∨ ch = .y then delta.colour else delta.mono + delta.colour) }
      else d.forecast r.slot ch)
    ∧ (0 < delta.mono + delta.colour → p.lastAdvance ≠ none →
      (e.printer r.slot).lastAdvance = some d.uptime ∧ (e.fault r.slot .stall).active = false)
    ∧ (delta.mono + delta.colour = 0 ∨ p.lastAdvance = none →
      (e.printer r.slot).lastAdvance = p.lastAdvance ∧ e.fault r.slot .stall = d.fault r.slot .stall))
  ∧ ∀ (s : State) (tag : Byte) (r : Report), s.device.running = true → r.fits → r.slot < 128 →
    s.device.live r.slot = true → s.device.work.conditionMap.wf none = true →
    (∀ ch, (s.device.settings r.slot).channels.get ch = true → r.levels.get ch ≤ 100 ∨ r.levels.get ch = 255) →
    let d := s.device
    let q := r.slot
    let wins := fun (code : Nat) (x : MapEntry) => ∃ n, d.mapEntry n = some x ∧ x.codeLow ≤ code ∧ code ≤ x.codeHigh
      ∧ ∀ m y, m < n → d.mapEntry m = some y → ¬ (y.codeLow ≤ code ∧ code ≤ y.codeHigh)
    let belongs := fun (code : Nat) (cls : FaultClass) =>
      (∃ x, wins code x ∧ x.cls = cls) ∨ (cls = .other ∧ ∀ x, ¬ wins code x)
    let marked := fun ch : Channel => ∃ code ∈ r.codes, ∃ x, wins code x ∧ x.cls = .supplyAbsent ∧ x.channel = some ch
    let was := fun ch => (d.printer q).marks.get ch
    let timed := 0 < ((d.printer q).deltas r.totals).mono + ((d.printer q).deltas r.totals).colour
      ∧ (d.printer q).lastAdvance ≠ none
    ∃ e, exec .printerReport (s.offer 0x12 tag r.bytes) = .next (s.reply 0x92 tag [0x00] e)
      ∧ (∀ cls, cls ∈ [FaultClass.jam, .coverOpen, .paperOut, .supplyAbsent, .mechanism, .other] →
        ((e.fault q cls).active = true ↔ ∃ code ∈ r.codes, belongs code cls)
        ∧ ((d.fault q cls).active = true ∨ (∀ code ∈ r.codes, ¬ belongs code cls) →
          (e.fault q cls).code = (d.fault q cls).code)
        ∧ (∀ pre code post, (d.fault q cls).active = false → r.codes = pre ++ code :: post → belongs code cls →
          (∀ other ∈ pre, ¬ belongs other cls) → (e.fault q cls).code = some code))
      ∧ (∀ ch, (d.settings q).channels.get ch = true →
        ((e.printer q).marks.get ch = true ↔ marked ch)
        ∧ (marked ch ∨ r.levels.get ch = 255 → ∃ days, e.forecast q ch = { (d.takeTotals r).forecast q ch with
            p := if (e.printer q).marks.get ch = was ch then (d.forecast q ch).p
              else if (e.printer q).marks.get ch then some 0 else (d.forecast q ch).pk
            days := days }
          ∧ (marked ch → was ch = false → days = some 0))
        ∧ (¬ marked ch → r.levels.get ch ≤ 100 →
          let f := (d.takeTotals r).forecast q ch
          let level := if ch = .waste then 100 - r.levels.get ch else r.levels.get ch
          let throughput := if ch = .c ∨ ch = .m ∨ ch = .y then (d.printer q).throughputColour
            else (d.printer q).throughputAll
          let days := fun rate : Option Nat =>
            if level = 0 then some 0
            else match rate, throughput with
              | none, _ => none
              | some _, none => some 999
              | some r, some t => if t = 0 then some 999 else some (min 999 (level * r / t))
          (f.pk = none →
            e.forecast q ch = { f with p := some level, pk := some level, anchor := 0, days := days f.rate })
          ∧ ∀ known, f.pk = some known →
            (known + d.work.forecast.swap ≤ level → e.forecast q ch = { f with
              p := some level, pk := some level, anchor := 0, consuming := false, lastSample := none, days := days f.rate })
            ∧ (level < known → level < known + d.work.forecast.swap → (d.printer q).inService = true →
              e.forecast q ch = { f with p := some level, pk := some level, anchor := 0, days := days f.rate })
            ∧ (level < known → level < known + d.work.forecast.swap → (d.printer q).inService = false →
              let sample := max 1 (min 65535 (f.anchor / (known - level)))
              let rate := match f.rate with
                | none => sample
                | some r => ((r : Int) + ((sample : Int) - r).tdiv (2 ^ d.work.forecast.shift)).toNat
              e.forecast q ch = { f with
                p := some level, pk := some level, anchor := 0, rate := some rate, lastSample := some sample
                consuming := sample < d.work.forecast.floor ch, days := days (some rate) })
            ∧ (known ≤ level → level < known + d.work.forecast.swap →
              e.forecast q ch = { f with p := some level, days := days f.rate })))
      ∧ (∀ ch, (d.settings q).channels.get ch = false →
        (e.printer q).marks.get ch = was ch ∧ e.forecast q ch = d.forecast q ch)
      ∧ (let chs := Channel.all.filter (d.settings q).channels.get
        e = d.handedOn (chs.foldl (fun x ch => x.takeLevel q ch (r.levels.get ch))
          ((chs.foldl (fun x ch => x.setMark q ch (d.marksAbsent r.codes ch)) (d.takeTotals r)).handMapped q r.codes)) q)
      ∧ (e.printer q).derived = e.derive q
      ∧ ((e.fault q .serviceDue).active = true ↔
        (d.settings q).serviceInterval ≠ 0 ∧ (d.settings q).serviceInterval * 1000 ≤ (e.printer q).sinceService)
      ∧ (let inSet := fun ch => (d.settings q).channels.get ch = true
        let empty := fun x : Device => ∃ ch, (ch = .k ∨ ch = .drum ∨ ch = .waste) ∧ inSet ch ∧ (x.forecast q ch).p = some 0
        let consuming := fun x : Device => ∃ ch, (x.forecast q ch).consuming = true
        let low := fun x : Device => ∃ ch days, inSet ch ∧ (x.forecast q ch).days = some days
          ∧ days ≤ d.work.forecast.lowWarning
        let out := fun x : Device => ∃ ch, inSet ch ∧ (x.forecast q ch).p = some 0
        (((d.fault q .supplyEmpty).active = true ↔ empty d) → ((e.fault q .supplyEmpty).active = true ↔ empty e))
        ∧ (((d.fault q .consumption).active = true ↔ consuming d) →
          ((e.fault q .consumption).active = true ↔ consuming e))
        ∧ (((d.printer q).low = true ↔ low d) → ((d.printer q).out = true ↔ out d) →
          ((e.printer q).low = true ↔ low e) ∧ ((e.printer q).out = true ↔ out e)
          ∧ (¬ low d → low e → d.enabled .supplyLow = true → e.stamp .supplyLow q ≠ none)
          ∧ (¬ out d → out e → d.enabled .supplyOut = true → e.stamp .supplyOut q ≠ none)))
      ∧ ((d.printer q).inService = false ∨ d.derived q →
        (timed → (e.printer q).lastAdvance = some d.uptime ∧ (e.fault q .stall).active = false)
        ∧ (¬ timed → (e.printer q).lastAdvance = (d.printer q).lastAdvance ∧ e.fault q .stall = d.fault q .stall))

/-- The three deadlines of a printer, each taken only when it has passed. A silence expiry raises the missed count by 1, at
most to 15, restarts the deadline from the one that passed, and makes SILENCE active when the count has reached the limit
and leaves it inactive below; a stall expiry makes STALL active when the stall time has run out since the last advance; a
holdoff expiry acts on the record by the class's activity and mode; a printer in SERVICE, its stored state current, is no
exception. Each expiry hands a class it latches to the callout table and derives the state again, once. Below the silence limit nothing else changes at a printer whose stored state is current, and before the deadline
nothing changes at all (R8, R10, R13, R33, R36, R45). That an expiry does nothing before its deadline is log entry 1. -/
def Obligations.PrinterDeadlinesAct : Prop :=
  ∀ (s : State) (p : Nat) (t : Time), s.device.running = true →
    ((s.device.printer p).silenceDeadline = some t → s.device.live p = true → passed s.device.uptime t = true →
      ∃ e, exec (.silenceExpiry p) s = .next { s with device := e } ∧ e.ground = s.device.ground
        ∧ (e.printer p).counters = { (s.device.printer p).counters with
            missed := min 15 ((s.device.printer p).missed + 1)
            silenceDeadline := some (after t (s.device.settings p).reportInterval) }
        ∧ ((e.fault p .silence).active = true ↔
          (s.device.settings p).missedLimit ≤ min 15 ((s.device.printer p).missed + 1))
        ∧ e = s.device.handedOn (({ s.device with printers := s.device.printers.put {} p { s.device.printer p with
            missed := min 15 ((s.device.printer p).missed + 1)
            silenceDeadline := some (after t (s.device.settings p).reportInterval) } } : Device).hand p .silence
          ((s.device.settings p).missedLimit ≤ min 15 ((s.device.printer p).missed + 1))) p
        ∧ (min 15 ((s.device.printer p).missed + 1) < (s.device.settings p).missedLimit →
          (s.device.fault p .silence).active = false → s.device.derived p →
          e.printers = s.device.printers.put {} p { s.device.printer p with
            missed := min 15 ((s.device.printer p).missed + 1)
            silenceDeadline := some (after t (s.device.settings p).reportInterval) }))
    ∧ ((s.device.printer p).silenceDeadline = some t → passed s.device.uptime t = false →
      exec (.silenceExpiry p) s = .next s)
    ∧ ((s.device.printer p).lastAdvance = some t → passed s.device.uptime (after t s.device.work.stallTime) = true →
      exec (.stallExpiry p) s = .next { s with device := s.device.handedOn (s.device.hand p .stall true) p })
    ∧ ((s.device.printer p).lastAdvance = some t → s.device.live p = true →
      (s.device.printer p).inService = false ∨ s.device.derived p → passed s.device.uptime (after t s.device.work.stallTime) = true →
      ∃ e, exec (.stallExpiry p) s = .next { s with device := e } ∧ e.ground = s.device.ground
        ∧ (e.fault p .stall).active = true ∧ ∀ q, (e.printer q).counters = (s.device.printer q).counters)
    ∧ ((s.device.printer p).lastAdvance = some t →
      passed s.device.uptime (after t s.device.work.stallTime) = false → exec (.stallExpiry p) s = .next s)
    ∧ (∀ cls, (s.device.fault p cls).holdoff = some t → passed s.device.uptime t = true →
      (s.device.printer p).inService = false ∨ s.device.derived p →
      let f := s.device.fault p cls
      let count := min 7 (f.count + 1)
      ∃ e, exec (.holdoffExpiry p cls) s = .next { s with device := e } ∧ e.ground = s.device.ground
        ∧ e.fault p cls = (if f.active = false then { f with holdoff := none }
          else match (s.device.policy cls).mode with
            | .retry =>
              if (s.device.policy cls).limit ≤ count then { f with count := count, latched := true, holdoff := none }
              else { f with count := count, holdoff := some (after t (s.device.policy cls).retryTime) }
            | .latched => { f with latched := true, holdoff := none }
            | .report | .ignore => { f with holdoff := none })
        ∧ e = s.device.handedOn (s.device.putFault p cls (e.fault p cls)) p
        ∧ ∀ q, (e.printer q).counters = (s.device.printer q).counters)
    ∧ (∀ cls, (s.device.fault p cls).holdoff = some t → passed s.device.uptime t = false →
      exec (.holdoffExpiry p cls) s = .next s)

/-! ## Faults and callouts -/

/-- An activation of a class at a live printer sets the active field and acts by the mode: LATCHED latches and ends a
holdoff; RETRY, unless latched, opens a new window with count 0 when the window has elapsed, raises the count and latches
at the limit or holds off for the retry time; REPORT and IGNORE leave latch, count and window, and REPORT raises FAULT_REPORT
for the printer. A deactivation clears the active field alone: latch, holdoff, count, window and activation code stay; a latched class still holds a configured printer,
not retired and not in service, FAULTED; and where the class was the only active class of the printer whose mode is REPORT,
the lasting cause of FAULT_REPORT is gone. Other classes and other printers keep their records (R12, R22, R31, R32, R34,
R35). That a class latched under RETRY takes the activation code is log entry 46; how the end of a window is judged where
uptime wraps is log entry 60. -/
def Obligations.FaultActivityFollowsTheMode : Prop :=
  (∀ (d : Device) (p : Nat) (cls : FaultClass) (code : Option Nat), d.live p = true →
    (d.fault p cls).active = false →
    let f := { d.fault p cls with active := true, code := if code.isSome then code else (d.fault p cls).code }
    let pol := d.policy cls
    let opened : FaultRecord :=
      match f.window with
      | none => { f with window := some d.uptime, count := 0 }
      | some start =>
        if passed d.uptime (after start (pol.window * 60)) then { f with window := some d.uptime, count := 0 } else f
    let count := min 7 (opened.count + 1)
    let e := d.hand p cls true code
    e.fault p cls =
      (match pol.mode with
        | .latched => if f.latched then f else { f with latched := true, holdoff := none }
        | .retry =>
          if f.latched then f
          else if pol.limit ≤ count then { opened with count := count, latched := true, holdoff := none }
          else { opened with count := count, holdoff := some (after d.uptime pol.retryTime) }
        | .report | .ignore => f)
    ∧ (∀ q k, q ≠ p ∨ k ≠ cls → e.fault q k = d.fault q k)
    ∧ e = { d with printers := e.printers, attention := e.attention }
    ∧ (pol.mode ≠ .report → e.attention = d.attention)
    ∧ (pol.mode = .report → e.attention = (d.raise .faultReport p).attention
      ∧ (d.enabled .faultReport = true → e.stamp .faultReport p = some (d.attention.counter + 1))))
  ∧ ∀ (d : Device) (p : Nat) (cls : FaultClass), d.live p = true → (d.fault p cls).active = true →
    let e := d.hand p cls false
    e.fault p cls = { d.fault p cls with active := false }
    ∧ (∀ q k, q ≠ p ∨ k ≠ cls → e.fault q k = d.fault q k)
    ∧ e = { d with printers := e.printers }
    ∧ ((d.fault p cls).latched = true → (d.printer p).inService = false → e.derive p = .faulted)
    ∧ ((∀ k, k ≠ cls → (d.policy k).mode = .report → (d.fault p k).active = false) →
      e.causeHolds .faultReport p = false)

/-- The printer state is the first condition of R12 that holds, and deriving it again stores it: UNCONFIGURED, RETIRED,
SERVICE, FAULTED by a latched class, HOLDOFF by a running holdoff, DEGRADED_MONO by an empty colour channel of the channel
set, else ONLINE. A change raises STATE_CHANGED and takes from the release queue the QUEUED tickets that the new state is not releasable
for, all of them in a state that is neither ONLINE nor DEGRADED_MONO and those with colour sides in DEGRADED_MONO: each is HELD again and
keeps its other fields, or has left the store where its expiry deadline has passed; the others keep their places, and their owners' and
tenants' reserved totals fall by the reservations; room in the grant queue then goes to the waiting printers, and the queue is
considered. The PRINTING ticket stays as it is but on entry to SERVICE, which empties the queue
(R12, R13, R54, R90, R98, R112, R114). -/
def Obligations.DerivedStateIsTheFirstThatHolds : Prop :=
  ∀ (d : Device) (p : Nat),
    let e := d.rederive p
    ((e.printer p).derived =
      (if d.configured p = false then .unconfigured
        else if (d.printer p).retired then .retired
        else if (d.printer p).inService then .service
        else if FaultClass.all.any fun cls => (d.fault p cls).latched then .faulted
        else if FaultClass.all.any fun cls => (d.fault p cls).holdoff.isSome then .holdoff
        else if [Channel.c, .m, .y].any fun ch =>
          (d.settings p).channels.get ch && (d.forecast p ch).p = some 0 then .degradedMono
        else .online))
    ∧ (d.derived p → e = d)
    ∧ (¬ d.derived p → e = (d.changeState p (d.derive p)).considered p)
    ∧ (d.enabled .stateChanged = true → ¬ d.derived p → e.stamp .stateChanged p ≠ none)
    ∧ (d.queuesInStep → d.tickets.wf none = true → ¬ d.derived p →
      let st := d.derive p
      let unprintable := fun t : Ticket => st ≠ .online && !(st = .degradedMono && t.colour = 0)
      let queued := (d.queue p).filterMap fun n => (d.ticket n).bind fun t => match t.phase with
        | .queued a => some (n, t, a)
        | .held | .printing _ _ _ => none
      let back := queued.filter fun x => unprintable x.2.1
      let returned := fun mine : Nat → Bool =>
        ((back.filter fun x => mine x.2.1.owner).map fun x => x.2.2.reservation).sum
      (∀ x ∈ back, e.ticket x.1 =
        if passed d.uptime x.2.1.expiry then none else some { x.2.1 with phase := .held })
      ∧ (st = .service → e.queue p = [])
      ∧ (st ≠ .service ∨ d.printingTicket p = none →
        e.queue p = (d.queue p).filter (fun n => back.all fun x => x.1 ≠ n)
        ∧ (∀ n t a taken deadline, d.ticket n = some t → t.phase = .printing a taken deadline → e.ticket n = some t)
        ∧ (∀ a, (e.accountTotals a).reserved = (d.accountTotals a).reserved - returned (· = a)
          ∧ (e.accountTotals a).used = (d.accountTotals a).used)
        ∧ ∀ tenant, (e.tenantTotals tenant).reserved
          = (d.tenantTotals tenant).reserved - returned fun a => (d.accountSettings a).tenant = tenant))

/-- CLEAR FAULT with a class or ALL at a live printer, in SERVICE too where its stored state is current: a latched inactive class is cleared, an unlatched
inactive one loses holdoff, count and window, an active one keeps its record, and a class not covered and every other
printer keep theirs. The answer is STILL_ACTIVE while a covered class is active and latched or holding off, else OK, and
the printer state is derived again. A bad slot or selector gives BAD_FIELD, an unconfigured slot NOT_FOUND, a retired one
STATE (R37, R38, R49). The selector byte is log entry 8, the class sets of the reply log entries 6 and 7; that no printer
that needs no visit is pending after any taken CLEAR FAULT, also where no class was cleared, is log entry 39. -/
def Obligations.ClearFaultClearsInactiveClasses : Prop :=
  ∀ (s : State) (tag : Byte) (p : Nat) (sel : Option FaultClass), s.device.running = true → p < 256 →
    let body := toBytes 1 p ++ toBytes 1 (match sel with | some cls => cls.number | none => 12)
    let covered := fun cls => sel = none ∨ sel = some cls
    let stays := ∃ cls, covered cls ∧ (s.device.fault p cls).active = true
      ∧ ((s.device.fault p cls).latched = true ∨ (s.device.fault p cls).holdoff ≠ none)
    (∀ b : Byte, 12 < b.toNat → exec .clearFault (s.offer 0x1A tag (toBytes 1 p ++ [b]))
      = .next (s.reply 0x9A tag [0x03] s.device))
    ∧ (128 ≤ p → exec .clearFault (s.offer 0x1A tag body) = .next (s.reply 0x9A tag [0x03] s.device))
    ∧ (p < 128 → s.device.configured p = false →
      exec .clearFault (s.offer 0x1A tag body) = .next (s.reply 0x9A tag [0x04] s.device))
    ∧ (p < 128 → s.device.configured p = true → (s.device.printer p).retired = true →
      exec .clearFault (s.offer 0x1A tag body) = .next (s.reply 0x9A tag [0x05] s.device))
    ∧ (p < 128 → s.device.live p = true → (s.device.printer p).inService = false ∨ s.device.derived p →
      ∃ e st, exec .clearFault (s.offer 0x1A tag body) = .next (s.reply 0x9A tag
          (st :: (classSetBytes (e.latchedSet p) ++ classSetBytes (e.holdoffSet p))) e)
        ∧ (stays → st = 0x0B) ∧ (¬ stays → st = 0x00)
        ∧ e.ground = s.device.ground ∧ e.terminals = s.device.terminals
        ∧ (∀ cls, e.fault p cls =
          if ¬ covered cls ∨ (s.device.fault p cls).active = true then s.device.fault p cls
          else if (s.device.fault p cls).latched = true then
            { s.device.fault p cls with latched := false, count := 0, window := none }
          else { s.device.fault p cls with holdoff := none, count := 0, window := none })
        ∧ (∀ q cls, q ≠ p → e.fault q cls = s.device.fault q cls)
        ∧ (e.printer p).derived = e.derive p
        ∧ (e.isPending p = true → e.needsVisit p = true))

/-- The callout table takes the latching of a class whose callout flag is set: a printer with a record gets the class into
its set and, in OPEN and DISPATCHED, a deadline that is the earlier of its own and now plus the class's response deadline; a
printer without one, and not in service, gets the lowest free record, opened with its latched callout classes, the class's
code, level and revisits 0, the smallest response deadline of its set, and the first serial from the counter on that no record
holds; CALLOUT_OPEN is raised and the counter stands behind that serial; with no free record the printer joins the tail of the
pending list once. A printer in service without a record, and a class without the callout flag, change nothing (R42 to R47,
R50). -/
def Obligations.CalloutOpensOnALatching : Prop :=
  ∀ (d : Device) (p : Nat) (cls : FaultClass), d.callouts.wf none = true →
    ((d.policy cls).callout = false → d.takeLatching p cls = d)
    ∧ ((d.policy cls).callout = true →
      (∀ n c, d.callout n = some c → c.printer = p → (∀ m k, d.callout m = some k → k.printer = p → m = n) →
        ∃ c', (d.takeLatching p cls) = { d with callouts := d.callouts.put none n (some c') }
          ∧ c' = { c with classes := c.classes.set true cls, phase := c'.phase }
          ∧ (∀ tech, c.phase = .attended tech → c'.phase = .attended tech)
          ∧ (∀ t, c.phase = .opened t → c'.phase =
            .opened (earlier t (after d.uptime ((d.policy cls).response * 60))))
          ∧ (∀ t, c.phase = .dispatched t → c'.phase =
            .dispatched (earlier t (after d.uptime ((d.policy cls).response * 60)))))
      ∧ ((∀ n c, d.callout n = some c → c.printer ≠ p) →
        ((d.printer p).inService = true → d.takeLatching p cls = d)
        ∧ ((d.printer p).inService = false →
          (∀ n, n < 32 → d.callout n = none → (∀ m, m < n → d.callout m ≠ none) →
            (∀ m c, d.callout m = some c → m < 32) →
            ∃ c, d.takeLatching p cls = ({ d with
                callouts := d.callouts.put none n (some c), calloutSerial := c.serial + 1 } : Device).raise .calloutOpen
              ∧ c.printer = p ∧ c.classes = d.calloutClasses p ∧ c.firstCode = (d.fault p cls).code
              ∧ c.openedAt = d.uptime ∧ c.openedWall = (if d.wallValid then some d.wall else none)
              ∧ c.phase = .opened (after d.uptime (d.responseTime (d.calloutClasses p))) ∧ c.level = 0 ∧ c.revisits = 0
              ∧ firstFree (fun x => ∃ m k, d.callout m = some k ∧ k.serial = x) d.calloutSerial c.serial)
          ∧ ((∀ n, n < 32 → d.callout n ≠ none) → d.isPending p = false →
            d.takeLatching p cls = { d with
              pendingList := d.pendingList ++ [⟨p, cls, (d.fault p cls).code, d.uptime⟩] })
          ∧ ((∀ n, n < 32 → d.callout n ≠ none) → d.isPending p = true → d.takeLatching p cls = d))))

/-- DISPATCH CALLOUT: a serial no record holds is answered NOT_FOUND; a record in OPEN becomes DISPATCHED with its deadline
restarted from now by its response time, which the reply carries in seconds, and keeps its level and all else; a record in
DISPATCHED or ATTENDED is answered STATE. With no other record in OPEN the cause of CALLOUT_OPEN is then gone. The request
is served while a save runs. ESCALATION: when the deadline of a record in OPEN or DISPATCHED has passed, its level rises by 1,
held at 3, its deadline restarts from the one that passed by the record's response time, its state and all else stay, and
ESCALATED is raised. Before the deadline, in ATTENDED and on a free record nothing happens. ESCALATED has no lasting cause
(R50, R51, R52). That an ESCALATION without a deadline that has passed leaves the state is log entry 1. -/
def Obligations.CalloutDeadlinesRestart : Prop :=
  (∀ (s : State) (tag : Byte) (serial : BitVec 16), s.device.running = true → s.device.callouts.wf none = true →
    ((∀ n c, s.device.callout n = some c → c.serial ≠ serial) →
      exec .dispatchCallout (s.offer 0x21 tag (toBytes 2 serial.toNat)) = .next (s.reply 0xA1 tag [0x04] s.device))
    ∧ (∀ n c, s.device.callout n = some c → c.serial = serial →
      (∀ m k, s.device.callout m = some k → k.serial = serial → m = n) →
      (∀ t, c.phase = .opened t →
        let sent : Device := { s.device with
          callouts := s.device.callouts.put none n (some { c with
            phase := .dispatched (after s.device.uptime (s.device.responseTime c.classes)) }) }
        exec .dispatchCallout (s.offer 0x21 tag (toBytes 2 serial.toNat))
          = .next (s.reply 0xA1 tag (0x00 :: toBytes 4 (s.device.responseTime c.classes)) sent)
        ∧ ((∀ m k t, m ≠ n → s.device.callout m = some k → k.phase ≠ .opened t) →
          sent.causeHolds .calloutOpen 0 = false))
      ∧ ((∀ t, c.phase ≠ .opened t) →
        exec .dispatchCallout (s.offer 0x21 tag (toBytes 2 serial.toNat))
          = .next (s.reply 0xA1 tag [0x05] s.device))))
  ∧ ∀ (s : State) (n : Nat), s.device.running = true →
    (∀ c t, s.device.callout n = some c → c.deadline = some t → passed s.device.uptime t = true →
      exec (.escalation n) s = .next { s with
        device := ({ s.device with
          callouts := s.device.callouts.put none n (some { c with
            level := min 3 (c.level + 1)
            phase := match c.phase with
              | .opened _ => .opened (after t (s.device.responseTime c.classes))
              | .dispatched _ => .dispatched (after t (s.device.responseTime c.classes))
              | .attended tech => .attended tech }) } : Device).raise .escalated })
    ∧ (∀ c t, s.device.callout n = some c → c.deadline = some t → passed s.device.uptime t = false →
      exec (.escalation n) s = .next s)
    ∧ (∀ c tech, s.device.callout n = some c → c.phase = .attended tech → exec (.escalation n) s = .next s)
    ∧ (s.device.callout n = none → exec (.escalation n) s = .next s)
    ∧ s.device.causeHolds .escalated 0 = false

/-- CLOSE CALLOUT clears every latched inactive class of the record's printer, in SERVICE too where its stored state is
current. Where no latched callout class remains it frees the record, which goes to the first pending printer that needs it,
and answers OK; else it keeps the record as it is and answers STILL_ACTIVE; both replies carry the classes still latched. END
SERVICE at a printer in SERVICE clears the in-service flag, keeps sides since service and every fault record, and, with latched
callout classes left, returns the printer's record to DISPATCHED with those classes and a fresh deadline, its level and revisits
kept, or opens the lowest free record for them, or puts the printer into the pending list; with none left it frees the record.
Refusals: a serial no record holds and an unconfigured slot NOT_FOUND, a bad slot BAD_FIELD, a printer not in SERVICE STATE (R37,
R46, R48, R55 to R57). The class set of the reply is log entries 6 and 7, the class of a pending entry without a code log entry 31. -/
def Obligations.CloseCalloutAndEndServiceMoveTheRecord : Prop :=
  (∀ (s : State) (tag : Byte) (serial : BitVec 16), s.device.running = true → s.device.callouts.wf none = true →
    ((∀ n c, s.device.callout n = some c → c.serial ≠ serial) →
      exec .closeCallout (s.offer 0x22 tag (toBytes 2 serial.toNat)) = .next (s.reply 0xA2 tag [0x04] s.device))
    ∧ (∀ n c, s.device.callout n = some c → c.serial = serial →
      (∀ m k, s.device.callout m = some k → k.serial = serial → m = n) →
      (s.device.printer c.printer).inService = false ∨ s.device.derived c.printer →
      let remains := ∃ cls, (s.device.fault c.printer cls).latched = true
        ∧ (s.device.fault c.printer cls).active = true ∧ (s.device.policy cls).callout = true
      ∃ e st, exec .closeCallout (s.offer 0x22 tag (toBytes 2 serial.toNat))
          = .next (s.reply 0xA2 tag (st :: classSetBytes (e.latchedSet c.printer)) e)
        ∧ e.ground = s.device.ground
        ∧ (∀ cls, e.fault c.printer cls =
          if (s.device.fault c.printer cls).latched = true ∧ (s.device.fault c.printer cls).active = false then
            { s.device.fault c.printer cls with latched := false, count := 0, window := none }
          else s.device.fault c.printer cls)
        ∧ (remains → st = 0x0B ∧ e.callouts = s.device.callouts ∧ e.pendingList = s.device.pendingList)
        ∧ (¬ remains → st = 0x00 ∧ s.device.handsRecordOn e n)))
  ∧ ∀ (s : State) (tag : Byte) (p : Nat), s.device.running = true → p < 256 →
    let d := s.device
    (128 ≤ p → exec .endService (s.offer 0x23 tag (toBytes 1 p)) = .next (s.reply 0xA3 tag [0x03] d))
    ∧ (p < 128 → d.configured p = false →
      exec .endService (s.offer 0x23 tag (toBytes 1 p)) = .next (s.reply 0xA3 tag [0x04] d))
    ∧ (p < 128 → d.configured p = true → (d.printer p).inService = false →
      exec .endService (s.offer 0x23 tag (toBytes 1 p)) = .next (s.reply 0xA3 tag [0x05] d))
    ∧ (p < 128 → d.configured p = true → (d.printer p).inService = true →
      let deadline := after d.uptime (d.responseTime (d.calloutClasses p))
      let code := (d.calloutClasses p).members.findSome? fun cls => (d.fault p cls).code
      ∃ e, exec .endService (s.offer 0x23 tag (toBytes 1 p)) = .next (s.reply 0xA3 tag [0x00] e)
        ∧ e.ground = d.ground ∧ e.terminals = d.terminals
        ∧ (e.printer p).counters = { (d.printer p).counters with inService := false }
        ∧ (∀ q, q ≠ p → (e.printer q).counters = (d.printer q).counters)
        ∧ (∀ cls, e.fault p cls = d.fault p cls)
        ∧ (d.callouts.wf none = true →
          (∀ n c, d.callout n = some c → c.printer = p → (∀ m k, d.callout m = some k → k.printer = p → m = n) →
            (d.needsVisit p = true → e.pendingList = d.pendingList
              ∧ e.callouts = d.callouts.put none n (some { c with
                classes := d.calloutClasses p, phase := .dispatched deadline }))
            ∧ (d.needsVisit p = false → d.handsRecordOn e n))
          ∧ ((∀ n c, d.callout n = some c → c.printer ≠ p) →
            (d.needsVisit p = false → e.callouts = d.callouts ∧ e.pendingList = d.pendingList)
            ∧ (d.needsVisit p = true →
              (∀ n, n < 32 → d.callout n = none → (∀ m, m < n → d.callout m ≠ none) →
                e.pendingList = d.pendingList ∧ ∃ k, e.callouts = d.callouts.put none n (some k) ∧ k.printer = p
                  ∧ k.classes = d.calloutClasses p ∧ k.firstCode = code ∧ k.phase = .opened deadline ∧ k.level = 0
                  ∧ k.revisits = 0)
              ∧ ((∀ n, n < 32 → d.callout n ≠ none) → d.isPending p = false → e.callouts = d.callouts
                ∧ ∃ cls, (d.calloutClasses p).get cls = true
                  ∧ (∀ f, (d.calloutClasses p).members.find? (fun x => (d.fault p x).code.isSome) = some f → cls = f)
                  ∧ e.pendingList = d.pendingList ++ [⟨p, cls, code, d.uptime⟩])))))

/-! ## Accounts and charging -/

/-- A lockout ends when uptime reaches locked-until, and not before, and on UNLOCK ACCOUNT, whether or not the account was
locked and while a save runs: locked-until becomes absent, the failure count 0, and nothing else changes; the account is usable
again if it and its tenant are active. An account above 4095 is answered BAD_FIELD (R75). That LOCKOUT_EXPIRY before locked-until, or
without a lockout, leaves the state is log entry 1. -/
def Obligations.LockoutEndsTwoWays : Prop :=
  ∀ (s : State) (tag : Byte) (n : Nat), s.device.running = true →
    let unlocked : Device := { s.device with
      accounts := s.device.accounts.put {} n { s.device.accountTotals n with lockedUntil := none, failures := 0 } }
    (4096 ≤ n → n < 65536 →
      exec .unlockAccount (s.offer 0x2D tag (toBytes 2 n)) = .next (s.reply 0xAD tag [0x03] s.device))
    ∧ (n < 4096 →
      exec .unlockAccount (s.offer 0x2D tag (toBytes 2 n)) = .next (s.reply 0xAD tag [0x00] unlocked))
    ∧ (∀ t, (s.device.accountTotals n).lockedUntil = some t → passed s.device.uptime t = true →
      exec (.lockoutExpiry n) s = .next { s with device := unlocked })
    ∧ (∀ t, (s.device.accountTotals n).lockedUntil = some t → passed s.device.uptime t = false →
      exec (.lockoutExpiry n) s = .next s)
    ∧ ((s.device.accountTotals n).lockedUntil = none → exec (.lockoutExpiry n) s = .next s)
    ∧ (unlocked.usable n = true ↔ (s.device.accountSettings n).active = true ∧
      (s.device.tenantSettings (s.device.accountSettings n).tenant).active = true)

/-- ADJUST USAGE adds its signed delta to the account's used and, separately, to its tenant's, each clamped to 0 to
4,294,967,295, replies OK with both, and changes nothing else, whether or not the account is active and while a save runs. An
account above 4095 is answered BAD_FIELD. CLOSE PERIOD with the current period number sets used to 0 for every account and
tenant, raises the period number by 1, and replies with the new number and the 64 used totals as they stood; the other totals
stay, and so does all else. With another number it is refused with STATE and the device's number (R76, R77). -/
def Obligations.UsedTotalsMoveByAdjustmentAndPeriodClose : Prop :=
  (∀ (s : State) (tag : Byte) (n : Nat) (delta : Int), s.device.running = true → -2147483648 ≤ delta →
    delta ≤ 2147483647 →
    let tenant := (s.device.accountSettings n).tenant
    let clamped := fun used : Nat => min 4294967295 ((used : Int) + delta).toNat
    (4096 ≤ n → n < 65536 → exec .adjustUsage (s.offer 0x2E tag (toBytes 2 n ++ toBytesInt 4 delta))
      = .next (s.reply 0xAE tag [0x03] s.device))
    ∧ (n < 4096 → exec .adjustUsage (s.offer 0x2E tag (toBytes 2 n ++ toBytesInt 4 delta))
      = .next (s.reply 0xAE tag (0x00 :: (toBytes 4 (clamped (s.device.accountTotals n).used)
          ++ toBytes 4 (clamped (s.device.tenantTotals tenant).used))) { s.device with
          accounts := s.device.accounts.put {} n { s.device.accountTotals n with
            used := clamped (s.device.accountTotals n).used }
          tenants := s.device.tenants.put {} tenant { s.device.tenantTotals tenant with
            used := clamped (s.device.tenantTotals tenant).used } })))
  ∧ ∀ (s : State) (tag : Byte) (number : BitVec 16), s.device.running = true → s.device.tenants.wf {} = true →
    s.device.accounts.wf {} = true →
    (number = s.device.period →
      ∃ tenants accounts, exec .closePeriod (s.offer 0x2F tag (toBytes 2 number.toNat))
        = .next (s.reply 0xAF tag (0x00 :: (toBytes 2 (number + 1).toNat
            ++ (List.range 64).flatMap fun n => toBytes 4 (s.device.tenantTotals n).used)) { s.device with
            tenants := tenants, accounts := accounts, period := number + 1 })
        ∧ (∀ n, tenants.get {} n = { s.device.tenantTotals n with used := 0 })
        ∧ ∀ n, accounts.get {} n = { s.device.accountTotals n with used := 0 })
    ∧ (number ≠ s.device.period →
      exec .closePeriod (s.offer 0x2F tag (toBytes 2 number.toNat))
        = .next (s.reply 0xAF tag (0x05 :: toBytes 2 s.device.period.toNat) s.device))

/-- The charge of a job with m mono sides, c colour sides and s sheets is the seven stages of R83 and R84: 0 for no side; else
the base less the duplex credit, LARGE scaled by lf/16 and floored, rounded to whole CU with a half up, raised to the minimum
and capped at 65,535. QUOTE replies with every stage, and with budgets and verdict for an account it names, and changes nothing
(R83, R84, R93); for a QUOTE with no side every value is 0. The raised and capped bytes are log entry 5. -/
def Obligations.ChargeFollowsTheSevenStages : Prop :=
  ∀ (s : State) (tag : Byte) (cls m c sh : Nat) (size : SizeClass), s.device.running = true → cls < 8 →
    m ≤ 9999 → c ≤ 9999 → sh ≤ 9999 → m + c ≠ 0 →
    let r := s.device.rates cls
    let duplexed := min sh (m + c - sh)
    let base := m * r.rm + c * r.rc + sh * r.rs
    let net := base - duplexed * r.dc
    let scaled := if size = .large then net * r.lf / 16 else net
    let cu := (scaled + 50) / 100
    charge r size m c sh = min 65535 (max cu r.mc)
    ∧ charge r size 0 0 sh = 0
    ∧ exec .quote (s.offer 0x3A tag (toBytes 1 cls ++ toBytes 2 0 ++ toBytes 2 0 ++ toBytes 2 sh ++ toBytes 1 size.number
        ++ optBytes 2 none))
      = .next (s.reply 0xBA tag (0x00 :: (toBytes 28 0 ++ [boolByte false, boolByte false] ++ toBytes 2 0 ++ toBytes 9 0
          ++ toBytes 9 0 ++ toBytes 2 0)) s.device)
    ∧ exec .quote (s.offer 0x3A tag (toBytes 1 cls ++ toBytes 2 m ++ toBytes 2 c ++ toBytes 2 sh
        ++ toBytes 1 size.number ++ optBytes 2 none))
      = .next (s.reply 0xBA tag (0x00 :: (toBytes 2 (m + c) ++ toBytes 2 duplexed ++ toBytes 4 base
          ++ toBytes 4 (duplexed * r.dc) ++ toBytes 4 net ++ toBytes 8 scaled ++ toBytes 4 cu
          ++ [boolByte (cu < r.mc)] ++ [boolByte (65535 < max cu r.mc)] ++ toBytes 2 (min 65535 (max cu r.mc))
          ++ toBytes 9 0 ++ toBytes 9 0 ++ toBytes 2 0)) s.device)
    ∧ ∀ a, a < 4096 → exec .quote (s.offer 0x3A tag (toBytes 1 cls ++ toBytes 2 m ++ toBytes 2 c ++ toBytes 2 sh
        ++ toBytes 1 size.number ++ optBytes 2 (some a)))
      = .next (s.reply 0xBA tag (0x00 :: (toBytes 2 (m + c) ++ toBytes 2 duplexed ++ toBytes 4 base
          ++ toBytes 4 (duplexed * r.dc) ++ toBytes 4 net ++ toBytes 8 scaled ++ toBytes 4 cu
          ++ [boolByte (cu < r.mc)] ++ [boolByte (65535 < max cu r.mc)] ++ toBytes 2 (min 65535 (max cu r.mc))
          ++ 1 :: budgetBytes (s.device.accountRemaining a)
          ++ 1 :: budgetBytes (s.device.tenantRemaining (s.device.accountSettings a).tenant)
          ++ [1, BitVec.ofNat 8 (s.device.verdict a (min 65535 (max cu r.mc))).number])) s.device)

/-- A settlement lowers both reserved totals by the reservation and raises both used totals by the charge, saturating. Where it
takes the remaining budget of the account, of the tenant, or of both from above 0 to 0 or below, one entry joins the
exhaustion list, naming which, and QUOTA_EXHAUSTED is raised; an infinite budget is never crossed (R65, R91, R92). That a
reserved total is not taken below 0 is log entry 24. -/
def Obligations.SettlementMovesTheTotals : Prop :=
  ∀ (d : Device) (a reservation cu : Nat),
    let tenant := (d.accountSettings a).tenant
    let acct := { d.accountTotals a with
      reserved := (d.accountTotals a).reserved - reservation
      used := min 4294967295 ((d.accountTotals a).used + cu) }
    let tot := { d.tenantTotals tenant with
      reserved := (d.tenantTotals tenant).reserved - reservation
      used := min 4294967295 ((d.tenantTotals tenant).used + cu) }
    let remaining := fun allowance used reserved : Nat => (allowance : Int) - used - reserved
    let allowA := (d.accountSettings a).allowance
    let allowT := (d.tenantSettings tenant).allowance
    let crossA := allowA ≠ 4294967295
      ∧ 0 < remaining allowA (d.accountTotals a).used (d.accountTotals a).reserved
      ∧ remaining allowA acct.used acct.reserved ≤ 0
    let crossT := allowT ≠ 4294967295
      ∧ 0 < remaining allowT (d.tenantTotals tenant).used (d.tenantTotals tenant).reserved
      ∧ remaining allowT tot.used tot.reserved ≤ 0
    let moved : Device := { d with
      accounts := d.accounts.put {} a acct, tenants := d.tenants.put {} tenant tot }
    let entry := fun x : Crossed => (moved.addExhaustion ⟨a, tenant, x, cu, reservation, d.uptime⟩).raise .quotaExhausted
    (¬ crossA → ¬ crossT → d.settle a reservation cu = moved)
    ∧ (crossA → ¬ crossT → d.settle a reservation cu = entry .account)
    ∧ (¬ crossA → crossT → d.settle a reservation cu = entry .tenant)
    ∧ (crossA → crossT → d.settle a reservation cu = entry .both)
    ∧ (∀ x, (moved.addExhaustion x).exhaustions =
      if d.exhaustions.length < 16 then d.exhaustions ++ [x] else d.exhaustions.drop 1 ++ [x])

/-- READ CLASS with CLASS replies with the class's rates, the tickets in flight at the class, and how many of them hold other
rates than those in force, and changes nothing; with EXHAUSTED, and READ TICKETS with REMOVED, it replies with the list, oldest
first, and the dropped count, and empties both; all three are served while a save runs (R92, R94, R103, R120). The selector
bytes are log entry 8, the count byte of a list log entry 9. -/
def Obligations.ListsAreEmptiedAsTheyAreRead : Prop :=
  ∀ (s : State) (tag : Byte), s.device.running = true →
    (∀ cls, cls < 8 →
      exec .readClass (s.offer 0x39 tag (toBytes 1 0 ++ toBytes 1 cls))
        = .next (s.reply 0xB9 tag (0x00 :: (toBytes 2 (s.device.rates cls).rm ++ toBytes 2 (s.device.rates cls).rc
            ++ toBytes 2 (s.device.rates cls).rs ++ toBytes 2 (s.device.rates cls).dc
            ++ toBytes 1 (s.device.rates cls).lf ++ toBytes 1 (s.device.rates cls).mc
            ++ toBytes 2 (s.device.inFlightAt cls).length
            ++ toBytes 2 ((s.device.inFlightAt cls).countP fun a => a.snapRates ≠ s.device.rates cls))) s.device))
    ∧ exec .readClass (s.offer 0x39 tag (toBytes 1 1))
      = .next (s.reply 0xB9 tag (0x00 :: (toBytes 1 s.device.exhaustionsDropped
          ++ BitVec.ofNat 8 s.device.exhaustions.length :: s.device.exhaustions.flatMap fun x =>
            toBytes 2 x.account ++ toBytes 1 x.tenant ++ toBytes 1 x.crossed.number ++ toBytes 2 x.charge
              ++ toBytes 2 x.reservation ++ toBytes 4 x.at_.toNat)) { s.device with
          exhaustions := [], exhaustionsDropped := 0 })
    ∧ exec .readTickets (s.offer 0x44 tag (toBytes 1 5))
      = .next (s.reply 0xC4 tag (0x00 :: (BitVec.ofNat 8 s.device.removals.length :: (s.device.removals.flatMap fun x =>
            toBytes 4 x.jobId ++ toBytes 2 x.owner ++ toBytes 2 x.ticket ++ toBytes 1 x.reason.number
              ++ optBytes 2 x.charge ++ toBytes 4 x.at_.toNat)
          ++ toBytes 1 s.device.removalsDropped)) { s.device with removals := [], removalsDropped := 0 })

/-! ## Jobs -/

/-- SUBMIT JOB is refused by checks 1 to 3 with BAD_FIELD; past them checks 4 to 9 refuse it in their order; a refusal has no
effect, and the reason byte is COLOUR_NOT_PERMITTED at check 6 alone; an accepted ticket takes the lowest free slot in HELD with the next submit sequence and
its tenant's hold time, the owner's held count and the counter rise by 1, STORE_HIGH is raised as the store reaches 896
tickets, and nothing else changes (R97, R99, R100, R101). The reason byte's values are log entry 27. -/
def Obligations.SubmitJobChecksAndPlaces : Prop :=
  (∀ (s : State) (tag : Byte) (b : Submission), s.device.running = true → b.jobId < 2 ^ 32 → b.owner < 65536 →
    b.targetKind < 256 → b.targetNumber < 256 → b.mono < 65536 → b.colour < 65536 → b.sheets < 65536 → b.size < 256 →
    b.title.length < 256 →
    (b.jobId = 0 ∨ 1 < b.targetKind ∨ 1 < b.size ∨ 32 < b.title.length
      ∨ (∃ x ∈ b.title, x.toNat < 0x20 ∨ 0x7E < x.toNat)
      ∨ 9999 < b.mono ∨ 9999 < b.colour ∨ b.sheets < 1 ∨ 9999 < b.sheets ∨ b.mono + b.colour < 1
      ∨ b.mono + b.colour < b.sheets ∨ 2 * b.sheets < b.mono + b.colour
      ∨ b.targetKind = 0 ∧ (128 ≤ b.targetNumber ∨ s.device.live b.targetNumber = false)
      ∨ b.targetKind = 1 ∧ 31 < b.targetNumber) →
    exec .submitJob (s.offer 0x40 tag b.bytes) = .next (s.reply 0xC0 tag [0x03, 1] s.device))
  ∧ ∀ (s : State) (tag : Byte) (b : Submission) (target : Target), s.device.running = true → b.names s.device target →
    s.device.tickets.wf none = true →
    let d := s.device
    let refused := fun status reason : Byte =>
      exec .submitJob (s.offer 0x40 tag b.bytes) = .next (s.reply 0xC0 tag [status, reason] d)
    let permitted := (d.accountSettings b.owner).colour = true
      ∧ (d.tenantSettings (d.accountSettings b.owner).tenant).colour = true
    let expiry := after d.uptime ((d.tenantSettings (d.accountSettings b.owner).tenant).holdHours * 3600)
    (4096 ≤ b.owner → refused 0x04 1)
    ∧ (b.owner < 4096 → d.usable b.owner = false → refused 0x05 1)
    ∧ (b.owner < 4096 → d.usable b.owner = true → 0 < b.colour → ¬ permitted → refused 0x05 0)
    ∧ (b.owner < 4096 → d.usable b.owner = true → (b.colour = 0 ∨ permitted) →
      ((∃ m u, d.ticket m = some u ∧ u.jobId = b.jobId) → refused 0x07 1)
      ∧ ((∀ m u, d.ticket m = some u → u.jobId ≠ b.jobId) →
        ((∀ m, m < 1024 → d.ticket m ≠ none) → refused 0x06 1)
        ∧ (∀ n, n < 1024 → d.ticket n = none → (∀ m, m < n → d.ticket m ≠ none) →
          ((d.accountSettings b.owner).heldLimit ≤ (d.accountTotals b.owner).held → refused 0x08 1)
          ∧ ((d.accountTotals b.owner).held < (d.accountSettings b.owner).heldLimit →
            let placed : Device := { d with
              tickets := d.tickets.put none n (some {
                jobId := b.jobId, owner := b.owner, target := target, mono := b.mono, colour := b.colour
                sheets := b.sheets, size := if b.size = 0 then .standard else .large
                title := if b.title = [] then none else some b.title
                sequence := d.nextSequence, expiry := expiry, phase := .held, reprint := false
                lastRefusal := none })
              accounts := d.accounts.put {} b.owner { d.accountTotals b.owner with
                held := (d.accountTotals b.owner).held + 1 }
              nextSequence := d.nextSequence + 1 }
            exec .submitJob (s.offer 0x40 tag b.bytes)
              = .next (s.reply 0xC0 tag ([0x00, 1] ++ toBytes 2 n ++ toBytes 4 d.nextSequence.toNat
                  ++ toBytes 4 (secondsLeft d.uptime expiry))
                (if d.ticketCount = 895 then placed.raise .storeHigh else placed))))))

/-- CANCEL JOB: a HELD ticket leaves the store, its owner's held count falls by 1 and nothing else changes; a QUEUED one also
leaves its queue and returns its reservation to both reserved totals, room in the grant queue goes to the waiting printers, and
the queue is considered again; a PRINTING one is refused with STATE; each reply carries the
state the ticket was in. A job id of 0 gives BAD_FIELD and one no ticket holds NOT_FOUND. TICKET EXPIRY: a HELD ticket whose
expiry deadline has passed leaves the store with reason EXPIRED in the removal list, its owner's held count falls by 1, and EXPIRED
is raised; a ticket QUEUED or PRINTING, and one whose deadline has not passed, is passed by (R90, R98, R102 to R104, R114). That TICKET_EXPIRY leaves the state there is log entry 1. -/
def Obligations.CancelAndExpiryRemoveTickets : Prop :=
  (∀ (s : State) (tag : Byte), s.device.running = true →
    let d := s.device
    let cancel := fun id : Nat => exec .cancelJob (s.offer 0x41 tag (toBytes 4 id))
    cancel 0 = .next (s.reply 0xC1 tag [0x03] d)
    ∧ (∀ id, 1 ≤ id → id < 2 ^ 32 → d.tickets.wf none = true → (∀ m u, d.ticket m = some u → u.jobId ≠ id) →
      cancel id = .next (s.reply 0xC1 tag [0x04] d))
    ∧ (∀ n t, d.holds n t → 1 ≤ t.jobId → t.jobId < 2 ^ 32 →
      (t.phase = .held → cancel t.jobId = .next (s.reply 0xC1 tag [0x00, 0] { d with
        tickets := d.tickets.put none n none
        accounts := d.accounts.put {} t.owner { d.accountTotals t.owner with
          held := (d.accountTotals t.owner).held - 1 } }))
      ∧ (∀ a, t.phase = .queued a → ∃ e, cancel t.jobId = .next (s.reply 0xC1 tag [0x00, 1] e)
        ∧ e.ground = d.ground ∧ e.ticket n = none
        ∧ e.queues = d.queues.put [] a.printer ((d.queue a.printer).filter (· ≠ n))
        ∧ e.accountTotals t.owner = { d.accountTotals t.owner with
            held := (d.accountTotals t.owner).held - 1
            reserved := (d.accountTotals t.owner).reserved - a.reservation }
        ∧ e.tenantTotals (d.accountSettings t.owner).tenant =
          { d.tenantTotals (d.accountSettings t.owner).tenant with
            reserved := (d.tenantTotals (d.accountSettings t.owner).tenant).reserved - a.reservation }
        ∧ e.removals = d.removals ∧ e.terminals = d.terminals ∧ e.orders = d.orders
        ∧ ∃ left : Device, e = left.considered a.printer
          ∧ left = { d with
            tickets := d.tickets.put none n none, accounts := left.accounts, tenants := left.tenants
            queues := d.queues.put [] a.printer ((d.queue a.printer).filter (· ≠ n)) })
      ∧ (∀ a taken t', t.phase = .printing a taken t' → cancel t.jobId = .next (s.reply 0xC1 tag [0x05, 2] d))))
  ∧ ∀ (s : State) (n : Nat) (t : Ticket), s.device.running = true → s.device.ticket n = some t →
    (t.phase = .held → passed s.device.uptime t.expiry = true →
      exec (.ticketExpiry n) s = .next { s with
        device := (({ s.device with
          tickets := s.device.tickets.put none n none
          accounts := s.device.accounts.put {} t.owner { s.device.accountTotals t.owner with
            held := (s.device.accountTotals t.owner).held - 1 } } : Device).addRemoval
          ⟨t.jobId, t.owner, n, .expired, none, s.device.uptime⟩).raise .expired })
    ∧ (t.phase ≠ .held ∨ passed s.device.uptime t.expiry = false → exec (.ticketExpiry n) s = .next s)
    ∧ ∀ r : Removal, (s.device.addRemoval r).removals =
      if s.device.removals.length < 32 then s.device.removals ++ [r] else s.device.removals.drop 1 ++ [r]

/-- TAKE GRANTS removes the oldest entries of the grant queue, at most the count, and replies with them and the number left; a count
outside 1 to 8 gives BAD_FIELD. The room gained goes to the waiting list while there is any. With no printer waiting the queue keeps
the rest, each removed entry's PRINTING ticket has its taken flag set and its printer's last-advance time is now (R10, R114, R116). -/
def Obligations.TakeGrantsHandsOutTheOldest : Prop :=
  ∀ (s : State) (tag : Byte) (count : Nat), s.device.running = true → count < 256 →
    let d := s.device
    (count = 0 ∨ 8 < count → exec .takeGrants (s.offer 0x42 tag (toBytes 1 count)) = .next (s.reply 0xC2 tag [0x03] d))
    ∧ (1 ≤ count → count ≤ 8 → ∃ e, exec .takeGrants (s.offer 0x42 tag (toBytes 1 count))
        = .next (s.reply 0xC2 tag (0x00 :: (BitVec.ofNat 8 (d.grants.take count).length ::
            ((d.grants.take count).flatMap fun g => toBytes 4 g.jobId ++ toBytes 2 g.ticket ++ toBytes 1 g.printer)
          ++ toBytes 1 e.grants.length)) e)
      ∧ e.ground = d.ground ∧ e.terminals = d.terminals ∧ e.accounts = d.accounts ∧ e.queues = d.queues
      ∧ (e.waiting = [] ∨ 32 ≤ e.grants.length)
      ∧ (d.waiting = [] → e.grants = d.grants.drop count
        ∧ (∀ g ∈ d.grants.take count, (e.printer g.printer).lastAdvance = some d.uptime)
        ∧ (∀ g ∈ d.grants.take count, ∀ t a taken deadline, d.ticket g.ticket = some t →
          t.phase = .printing a taken deadline →
          e.ticket g.ticket = some { t with phase := .printing a true deadline })
        ∧ (∀ n, (∀ g ∈ d.grants.take count, g.ticket ≠ n) → e.ticket n = d.ticket n)))

/-- JOB DONE for a PRINTING ticket settles it at its class snapshot with the reported counts clamped to 9,999: reserved falls by the
reservation and used rises by the charge, for account and tenant; the ticket leaves store and queue, the owner's held count falls by 1,
the removal list records it when it was ABORTED, and the reply carries the charge and the clamped counts; exhaustion list and
QUOTA_EXHAUSTED are as the settlement leaves them. Its grant entry goes, the stall timing ends, room in the grant queue goes to the
waiting printers, and then the queue it left is considered. A ticket HELD or QUEUED gives
TOO_LATE, an unknown job id NOT_FOUND, job id 0 or another outcome BAD_FIELD. COMPLETION DEADLINE of a PRINTING ticket, once it has
passed, raises JOB_TIMEOUT: with all three PRINTING accumulators at 0 the ticket returns to HELD with the reprint mark, its reservation
returned, or leaves the store when its expiry deadline has passed; else it is settled from the accumulators and leaves the store with
reason TIMEOUT_SETTLED, in the same way. Before the deadline, and in HELD and QUEUED, nothing happens (R10, R86, R91, R92, R98, R102, R112, R114, R117,
R118). That COMPLETION_DEADLINE leaves the state there is log entry 1, that an outcome out of range is answered first log entry 48. -/
def Obligations.PrintingTicketEndsByJobDoneOrDeadline : Prop :=
  (∀ (s : State) (tag : Byte) (m c sh outcome : Nat), s.device.running = true → m < 65536 → c < 65536 → sh < 65536 →
    outcome < 256 →
    let d := s.device
    let counts : Totals := ⟨min 9999 m, min 9999 c, min 9999 sh⟩
    let done := fun id : Nat => exec .jobDone (s.offer 0x43 tag
      (toBytes 4 id ++ toBytes 2 m ++ toBytes 2 c ++ toBytes 2 sh ++ toBytes 1 outcome))
    done 0 = .next (s.reply 0xC3 tag [0x03] d)
    ∧ (∀ id, id < 2 ^ 32 → 1 < outcome → done id = .next (s.reply 0xC3 tag [0x03] d))
    ∧ (∀ id, 1 ≤ id → id < 2 ^ 32 → outcome ≤ 1 → d.tickets.wf none = true →
      (∀ k u, d.ticket k = some u → u.jobId ≠ id) → done id = .next (s.reply 0xC3 tag [0x04] d))
    ∧ (∀ n t, d.holds n t → 1 ≤ t.jobId → t.jobId < 2 ^ 32 → outcome ≤ 1 →
      (t.phase.isPrinting = false → done t.jobId = .next (s.reply 0xC3 tag [0x09] d))
      ∧ (∀ a taken deadline, t.phase = .printing a taken deadline →
        let cu := charge a.snapRates t.size counts.mono counts.colour counts.sheets
        let tenant := (d.accountSettings t.owner).tenant
        ∃ e, done t.jobId = .next (s.reply 0xC3 tag (0x00 :: (toBytes 2 cu ++ toBytes 2 counts.mono
            ++ toBytes 2 counts.colour ++ toBytes 2 counts.sheets)) e)
          ∧ e.ground = d.ground ∧ e.ticket n = none
          ∧ e.queues = d.queues.put [] a.printer ((d.queue a.printer).filter (· ≠ n))
          ∧ e.accountTotals t.owner = { d.accountTotals t.owner with
              held := (d.accountTotals t.owner).held - 1
              reserved := (d.accountTotals t.owner).reserved - a.reservation
              used := min 4294967295 ((d.accountTotals t.owner).used + cu) }
          ∧ e.tenantTotals tenant = { d.tenantTotals tenant with
              reserved := (d.tenantTotals tenant).reserved - a.reservation
              used := min 4294967295 ((d.tenantTotals tenant).used + cu) }
          ∧ e.removals = (if outcome = 1 then
              (d.addRemoval ⟨t.jobId, t.owner, n, .aborted, some cu, d.uptime⟩).removals else d.removals)
          ∧ (e.printer a.printer).lastAdvance = none ∧ e.terminals = d.terminals ∧ e.orders = d.orders
          ∧ ∃ left : Device, e = left.considered a.printer ∧ d.leftBy left n a.printer t.owner ∧ left.ticket n = none
            ∧ left.removalsDropped = (if outcome = 1 then
                (d.addRemoval ⟨t.jobId, t.owner, n, .aborted, some cu, d.uptime⟩).removalsDropped else d.removalsDropped)
            ∧ left.exhaustions = (d.settle t.owner a.reservation cu).exhaustions
            ∧ left.exhaustionsDropped = (d.settle t.owner a.reservation cu).exhaustionsDropped
            ∧ left.attention = (d.settle t.owner a.reservation cu).attention)))
  ∧ ∀ (s : State) (n : Nat) (t : Ticket), s.device.running = true → s.device.ticket n = some t →
    let d := s.device
    (t.phase.isPrinting = false → exec (.completionDeadline n) s = .next s)
    ∧ (∀ a taken deadline, t.phase = .printing a taken deadline →
      (passed d.uptime deadline = false → exec (.completionDeadline n) s = .next s)
      ∧ (passed d.uptime deadline = true →
        let acc := (d.printer a.printer).printing
        let cu := charge a.snapRates t.size (min 9999 acc.mono) (min 9999 acc.colour) (min 9999 acc.sheets)
        let settled := d.settle t.owner a.reservation cu
        ∃ e left, exec (.completionDeadline n) s = .next { s with device := e }
          ∧ e = left.considered a.printer ∧ d.leftBy left n a.printer t.owner
          ∧ (acc = {} → left.exhaustions = d.exhaustions ∧ left.exhaustionsDropped = d.exhaustionsDropped
            ∧ left.attention = ((if passed d.uptime t.expiry then d.raise .expired else d).raise .jobTimeout).attention)
          ∧ (acc ≠ {} → left.exhaustions = settled.exhaustions ∧ left.exhaustionsDropped = settled.exhaustionsDropped
            ∧ left.attention = (settled.raise .jobTimeout).attention)
          ∧ e.ground = d.ground ∧ e.terminals = d.terminals
          ∧ e.queues = d.queues.put [] a.printer ((d.queue a.printer).filter (· ≠ n))
          ∧ (d.enabled .jobTimeout = true → e.stamp .jobTimeout 0 ≠ none)
          ∧ (e.accountTotals t.owner).reserved = (d.accountTotals t.owner).reserved - a.reservation
          ∧ (acc = {} →
            e.ticket n = (if passed d.uptime t.expiry then none
              else some { t with phase := .held, reprint := true })
            ∧ (e.accountTotals t.owner).used = (d.accountTotals t.owner).used
            ∧ e.removals = if passed d.uptime t.expiry then
                (d.addRemoval ⟨t.jobId, t.owner, n, .expired, none, d.uptime⟩).removals else d.removals)
          ∧ (acc ≠ {} → e.ticket n = none
            ∧ (e.accountTotals t.owner).used = min 4294967295 ((d.accountTotals t.owner).used + cu)
            ∧ e.removals = (d.addRemoval ⟨t.jobId, t.owner, n, .timeoutSettled, some cu, d.uptime⟩).removals)))


/-! ## Terminals and lines -/

/-- A line polls its configured addresses in ascending order: after a poll the cursor moves to the next configured address
above the one just polled, and past the last one the cycle ends and is counted. The next cycle begins at once from the
lowest configured address; in QUIET the line pauses first for 2 s, unless a terminal of the line has an open session or is
JOINING, and the end of the pause begins the cycle, and nothing does before the pause is over. A POLL tells an ABSENT terminal that it has not joined and carries a PRESENT one's
ack bit and pending screen; a JOINING terminal is sent JOIN GRANT, which is counted (R125, R126, R128 to R130, R132). Counting
it as it is sent is log entry 23; that the command does nothing without a pause that is over is log entry 1. -/
def Obligations.LinesPollConfiguredAddressesInTurn : Prop :=
  ∀ (s : State) (line a : Nat), s.device.running = true →
    let d := s.device
    let index := fun b : Nat => line * 32 + b - 1
    let conf := fun b : Nat => 1 ≤ b ∧ b ≤ 32 ∧ (d.terminalSettings (index b)).configured = true
    let sent := fun b cycles : Nat =>
      let t := d.terminal (index b)
      let q := (d.terminalSettings (index b)).printer
      ({ d.withTerminal (index b) (match t.presence with
          | .absent => t
          | .joining => { t with joinPolls := min 3 (t.joinPolls + 1) }
          | .present => { t with pending := t.pending.map fun p => { p with carried := true } }) with
        lines := d.lines.put {} line ⟨.polling b (match t.presence with
          | .absent => .poll false false none
          | .joining => .joinGrant (d.settings q).name (d.settings q).group false
          | .present => .poll true t.ack (t.pending.map fun p => p.screen)), cycles⟩ } : Device)
    let cycles := min 4294967295 ((d.line line).cycles + 1)
    let free := ∀ k, k < 32 → (d.terminal (line * 32 + k)).session = .none
      ∧ (d.terminal (line * 32 + k)).presence ≠ .joining
    (∀ b, conf b → a < b → (∀ c, a < c → c < b → ¬ conf c) → d.advance line a = sent b (d.line line).cycles)
    ∧ ((∀ c, a < c → ¬ conf c) →
      (∀ b, conf b → (∀ c, c < b → ¬ conf c) →
        ((d.lineSettings line).quiet = true → free →
          d.advance line a = { d with lines := d.lines.put {} line ⟨.pausing (after d.uptime 2), cycles⟩ })
        ∧ ((d.lineSettings line).quiet = false ∨ ¬ free → d.advance line a = sent b cycles))
      ∧ ((∀ b, ¬ conf b) → d.advance line a = { d with lines := d.lines.put {} line ⟨.silent, cycles⟩ }))
    ∧ (∀ x, (d.line line).phase = .pausing x →
      (passed d.uptime x = true → ∀ b, conf b → (∀ c, c < b → ¬ conf c) →
        exec (.quietPauseEnd line) s = .next { s with device := sent b (d.line line).cycles })
      ∧ (passed d.uptime x = false → exec (.quietPauseEnd line) s = .next s))
    ∧ ((∀ x, (d.line line).phase ≠ .pausing x) → exec (.quietPauseEnd line) s = .next s)

/-- What an outstanding poll does to the polled terminal's presence. A bad poll: none in ABSENT; the third JOIN GRANT without
READY returns a JOINING terminal to ABSENT; in PRESENT a bad outcome joins the window, and fewer than 3 good ones of 8 lose the
terminal. JOIN REQUEST in ABSENT, and in PRESENT after the session has ended, keeps a refused serial or starts the join; READY
makes a JOINING terminal, and a recently lost one, PRESENT with WELCOME; IDLE and READY in PRESENT are good polls alone. The
cursor then moves. A recently-lost deadline that passes becomes absent at any terminal,
whatever its line does (R126 to R130, R132). That RECENTLY_LOST_EXPIRY before its
deadline leaves the state, and that READY rejoins while a deadline that has passed is not taken yet, is log entry 1; that a JOIN GRANT is
counted as it is sent is log entry 23. -/
def Obligations.PresenceFollowsThePolls : Prop :=
  (∀ (s : State) (line a i : Nat), s.device.running = true → s.device.awaits line a i →
    let d := s.device
    let t := d.terminal i
    let nothing : Host.Outcome State Fault Refusal := .next { s with device := d.advance line a }
    let becomes := fun u : Terminal =>
      (.next { s with device := (d.withTerminal i u).advance line a } : Host.Outcome State Fault Refusal)
    let missed := if t.joinPolls < 3 then t else { t with presence := .absent, joinedSerial := none, joinPolls := 0 }
    let entered : Host.Outcome State Fault Refusal := .next { s with
      device := ((d.withTerminal i { t with
          presence := .present, window := List.replicate 8 true, ack := false, lostDeadline := none
          pending := (d.welcomed i t).pending
          follow := none }).raise .terminalJoined i).advance line a }
    let asked := fun (u : Terminal) (serial : Nat) =>
      if serial = 0 ∨ (d.terminalSettings i).expected.any (· ≠ serial) = true then
        { u with refusedSerial := some serial }
      else { u with presence := .joining, joinedSerial := some serial, joinPolls := 0 }
    (∀ c, c = .answerWindowClose line ∨ (∃ why, c = .badAnswer line why) →
      (t.presence = .absent → exec c s = nothing)
      ∧ (t.presence = .joining → exec c s = becomes missed)
      ∧ (t.presence = .present → 3 ≤ (t.window.drop 1).count true →
        exec c s = becomes { t with window := t.window.drop 1 ++ [false] })
      ∧ (t.presence = .present → (t.window.drop 1).count true < 3 →
        exec c s = .next { s with device := ((d.withTerminal i { t with
            presence := .absent, lostDeadline := some (after d.uptime 60), session := .none
            window := t.window.drop 1 ++ [false], pending := none
            follow := none }).raise .terminalLost i).advance line a }))
    ∧ ((t.presence = .absent → exec (.idle line) s = nothing)
      ∧ (t.presence = .joining → exec (.idle line) s = becomes missed)
      ∧ (t.presence = .present → exec (.idle line) s = becomes (t.answered d.uptime)))
    ∧ ((t.presence = .absent → t.lostDeadline = none → exec (.ready line) s = nothing)
      ∧ (t.presence = .absent → t.lostDeadline ≠ none → exec (.ready line) s = entered)
      ∧ (t.presence = .joining → exec (.ready line) s = entered)
      ∧ (t.presence = .present → exec (.ready line) s = becomes (t.answered d.uptime)))
    ∧ (∀ serial, (t.presence = .absent → exec (.joinRequest line serial) s = becomes (asked t serial))
      ∧ (t.presence = .joining → exec (.joinRequest line serial) s = becomes missed)
      ∧ (t.presence = .present → exec (.joinRequest line serial) s = becomes (asked { t.answered d.uptime with
          session := .none, pending := none, follow := none, presence := .absent } serial))))
  ∧ ∀ (s : State) (i : Nat) (x : Time), s.device.running = true → (s.device.terminal i).lostDeadline = some x →
    (passed s.device.uptime x = true → exec (.recentlyLostExpiry i) s
      = .next { s with device := s.device.withTerminal i { s.device.terminal i with lostDeadline := none } })
    ∧ (passed s.device.uptime x = false → exec (.recentlyLostExpiry i) s = .next s)

/-- An accepted BADGE whose token is 0 or bound to no account ends any session with RESULT UNKNOWN_BADGE; one whose account is
not usable ends it with LOCKED, and one whose account wants a PIN and holds no digest with RESULT PIN_NOT_SET, each with follow-up
WELCOME. Else, when no session of that account is open, any session ends and one opens: PIN_WAIT with PIN ENTRY, LISTING with page
1, or SERVICE_MENU with SERVICE, by PIN_REQUIRED and role. A badge of the account of the open session shows page 1 of a listing
built afresh in LISTING, SERVICE with the last outcome in SERVICE_MENU, and PIN ENTRY in PIN_WAIT, or opens the session of its
role there when no PIN is asked for any more (R70, R131, R134, R135, R139). -/
def Obligations.BadgeOpensTheAccountsSession : Prop :=
  ∀ (s : State) (line a i : Nat) (toggle : Bool) (token : BitVec 64), s.device.running = true →
    s.device.awaits line a i → (s.device.terminal i).presence = .present → (s.device.terminal i).ack ≠ toggle →
    s.device.work.credentials.wf {} = true →
    let d := s.device
    let idle := d.idleAt line
    let t := (d.terminal i).accepted d.uptime idle toggle
    let becomes := fun u : Terminal =>
      exec (.badge line toggle token) s = .next { s with device := (d.withTerminal i u).advance line a }
    let holds := fun n => (d.credentials n).token1 = some token ∨ (d.credentials n).token2 = some token
    (token = 0 ∨ (∀ n, ¬ holds n) → becomes (t.showing (.result (some .unknownBadge) .nothing) (some .welcome) .none))
    ∧ (∀ n, token ≠ 0 → holds n → (∀ m, holds m → m = n) →
      (d.usable n = false → becomes (t.showing (.locked .notUsable (((d.accountTotals n).lockedUntil).map fun x =>
          (secondsLeft d.uptime x + 59) / 60)) (some .welcome) .none))
      ∧ (d.usable n = true → (d.accountSettings n).pinRequired = true → (d.credentials n).digest = none →
        becomes (t.showing (.result (some .pinNotSet) .nothing) (some .welcome) .none))
      ∧ (d.usable n = true → t.session.account ≠ some n →
        ((d.accountSettings n).pinRequired = true → (d.credentials n).digest ≠ none →
          becomes (t.showing (.pinEntry none) none (.pinWait n idle)))
        ∧ ((d.accountSettings n).pinRequired = false → (d.accountSettings n).role = .user →
          becomes (d.listed i n idle 1 t))
        ∧ ((d.accountSettings n).pinRequired = false → (d.accountSettings n).role = .tech →
          becomes (t.showing (d.serviceScreen i none) none (.serviceMenu n idle none))))
      ∧ (∀ page refs, d.usable n = true →
        ((d.accountSettings n).pinRequired = true → (d.credentials n).digest ≠ none) →
        t.session = .listing n idle page refs → becomes (d.listed i n idle 1 t))
      ∧ (∀ last, d.usable n = true → ((d.accountSettings n).pinRequired = true → (d.credentials n).digest ≠ none) →
        t.session = .serviceMenu n idle last →
        becomes (t.showing (d.serviceScreen i last) none (.serviceMenu n idle last)))
      ∧ (d.usable n = true → t.session = .pinWait n idle →
        ((d.accountSettings n).pinRequired = true → (d.credentials n).digest ≠ none →
          becomes (t.showing (.pinEntry none) none (.pinWait n idle)))
        ∧ ((d.accountSettings n).pinRequired = false → (d.accountSettings n).role = .user →
          becomes (d.listed i n idle 1 t))
        ∧ ((d.accountSettings n).pinRequired = false → (d.accountSettings n).role = .tech →
          becomes (t.showing (d.serviceScreen i none) none (.serviceMenu n idle none)))))

/-- An accepted PIN in PIN_WAIT. The stored digest, or none asked for any more, opens the session of the account's role and, when it
was compared, clears the failure count; a wrong one below the limit raises the count by 1 and shows PIN ENTRY with the failures left;
one that reaches the limit locks the account for the lockout time, shows LOCKED and leaves no session of it on any PRESENT terminal. The lasting
cause of ACCOUNT_LOCKED is an account with a locked-until. An account no
longer usable, and one that holds no digest, end the session with LOCKED and with RESULT. In any other session state a PIN is
accepted and has no effect (R64, R74, R131, R134, R136, R139). -/
def Obligations.PinOpensOrLocks : Prop :=
  ∀ (s : State) (line a i : Nat) (toggle : Bool) (digest : BitVec 32), s.device.running = true →
    s.device.awaits line a i → i < 128 → (s.device.terminal i).presence = .present →
    (s.device.terminal i).ack ≠ toggle →
    let d := s.device
    let idle := d.idleAt line
    let t := (d.terminal i).accepted d.uptime idle toggle
    let becomes := fun (e : Device) (u : Terminal) =>
      exec (.pin line toggle digest) s = .next { s with device := (e.withTerminal i u).advance line a }
    let opened := fun (e : Device) (n : Nat) => match (d.accountSettings n).role with
      | .user => becomes e (d.listed i n idle 1 t)
      | .tech => becomes e (t.showing (d.serviceScreen i none) none (.serviceMenu n idle none))
    (d.accounts.wf {} = true →
      (d.causeHolds .accountLocked 0 = true ↔ ∃ n, (d.accountTotals n).lockedUntil ≠ none))
    ∧ ((∀ n x, (d.terminal i).session ≠ .pinWait n x) → becomes d t)
    ∧ (∀ n x, (d.terminal i).session = .pinWait n x →
      let totals := d.accountTotals n
      (d.usable n = false → becomes d (t.showing (.locked .notUsable (totals.lockedUntil.map fun x =>
          (secondsLeft d.uptime x + 59) / 60)) (some .welcome) .none))
      ∧ (d.usable n = true → (d.accountSettings n).pinRequired = false → opened d n)
      ∧ (d.usable n = true → (d.accountSettings n).pinRequired = true → (d.credentials n).digest = none →
        becomes d (t.showing (.result (some .pinNotSet) .nothing) (some .welcome) .none))
      ∧ (d.usable n = true → (d.accountSettings n).pinRequired = true → (d.credentials n).digest = some digest →
        opened { d with accounts := d.accounts.put {} n { totals with failures := 0 } } n)
      ∧ (∀ g, d.usable n = true → (d.accountSettings n).pinRequired = true → (d.credentials n).digest = some g →
        g ≠ digest →
        (totals.failures + 1 < d.work.guard.failureLimit →
          becomes { d with accounts := d.accounts.put {} n { totals with failures := min 15 (totals.failures + 1) } }
            (t.showing (.pinEntry (some (d.work.guard.failureLimit - (totals.failures + 1)))) none t.session))
        ∧ (d.work.guard.failureLimit ≤ totals.failures + 1 →
          ∃ e : Device, exec (.pin line toggle digest) s = .next { s with device := e.advance line a }
            ∧ e.accounts = d.accounts.put {} n { totals with
                failures := min 15 (totals.failures + 1)
                lockedUntil := some (after d.uptime (d.work.guard.lockoutMinutes * 60)) }
            ∧ e.usable n = false ∧ e = { d with
                accounts := e.accounts, attention := e.attention, terminals := e.terminals }
            ∧ (d.enabled .accountLocked = true → e.stamp .accountLocked 0 ≠ none)
            ∧ e.terminal i = t.showing (.locked .lockedOut (some ((secondsLeft d.uptime
              (after d.uptime (d.work.guard.lockoutMinutes * 60)) + 59) / 60))) (some .welcome) .none
            ∧ (∀ j, j < 128 → (e.terminal j).presence = .present → (e.terminal j).session.account ≠ some n)
            ∧ (∀ j, j ≠ i → (d.terminal j).session.account ≠ some n → e.terminal j = d.terminal j))))

/-- RELEASE n in LISTING takes the entry at position n of the reference page through the eight checks in order; the first that applies
is the outcome, which RESULT shows with the job, follow-up the same page, and which the ticket keeps as its last refusal; TICKET_GONE
alone changes no ticket. A ticket that passes all is QUEUED at the printer with the estimate as reservation and the class snapshot, both
reserved totals rise by it, the ticket joins the queue's tail, and the queue is considered for promotion (R65, R85, R87 to R89, R105, R107,
R108, R137). -/
def Obligations.ReleaseRunsTheChecksInOrder : Prop :=
  ∀ (s : State) (line a i n acct page : Nat) (toggle : Bool) (old : Time) (refs : List PageRef),
    s.device.running = true → s.device.awaits line a i → (s.device.terminal i).presence = .present →
    (s.device.terminal i).ack ≠ toggle → (s.device.terminal i).session = .listing acct old page refs →
    1 ≤ n → n ≤ 4 →
    let d := s.device
    let q := (d.terminalSettings i).printer
    let idle := d.idleAt line
    let t := (d.terminal i).accepted d.uptime idle toggle
    let gives := fun (e : Device) (o : ReleaseOutcome) (name : Option JobName) =>
      exec (.release line toggle n) s = .next { s with
        device := (e.withTerminal i (t.showing (.result (some (.release o)) (.job name)) (some (.jobList page))
          (.listing acct idle page refs))).advance line a }
    let here := fun k : Ticket => k.owner = acct ∧ k.phase = .held
      ∧ ((∃ p, k.target = .printer p ∧ (p = q ∨ d.configured p = true ∧ (d.settings p).group = (d.settings q).group))
        ∨ k.target = .group (d.settings q).group)
    (refs[n - 1]? = none → gives d .ticketGone none)
    ∧ (∀ r, refs[n - 1]? = some r → (∀ k, d.ticket r.ticket = some k → k.jobId = r.jobId → ¬ here k) →
      ∃ name, gives d .ticketGone (some name))
    ∧ (∀ r k, refs[n - 1]? = some r → d.ticket r.ticket = some k → k.jobId = r.jobId → here k →
      let rates := d.rates (d.settings q).rateClass
      let est := charge rates k.size k.mono k.colour k.sheets
      let name := some (match k.title with | some x => JobName.title x | none => .jobId k.jobId)
      let refused := fun o : ReleaseOutcome =>
        gives { d with tickets := d.tickets.put none r.ticket (some { k with lastRefusal := some o }) } o name
      let other := ∃ p, k.target = .printer p ∧ p ≠ q ∧ ((d.printer p).derived = .online
        ∨ (d.printer p).derived = .degradedMono ∧ k.colour = 0)
      let st := (d.printer q).derived
      let tenant := (d.accountSettings acct).tenant
      let permitted := (d.accountSettings acct).colour = true ∧ (d.tenantSettings tenant).colour = true
      let lacks := fun allowance used reserved : Nat => est ≠ 0 ∧ allowance ≠ 4294967295
        ∧ (allowance : Int) - used - reserved < est
      let lacksA := lacks (d.accountSettings acct).allowance (d.accountTotals acct).used (d.accountTotals acct).reserved
      let lacksT := lacks (d.tenantSettings tenant).allowance (d.tenantTotals tenant).used (d.tenantTotals tenant).reserved
      (other → refused .notHere)
      ∧ (¬ other → st ≠ .online → st ≠ .degradedMono → refused .printerUnavailable)
      ∧ (¬ other → st = .degradedMono → 0 < k.colour → refused .colourUnavailable)
      ∧ (¬ other → st = .online → 0 < k.colour → ¬ permitted → refused .colourNotPermitted)
      ∧ (¬ other → st = .online ∨ st = .degradedMono ∧ k.colour = 0 → k.colour = 0 ∨ permitted →
        (8 ≤ (d.queue q).length → refused .queueFull)
        ∧ ((d.queue q).length < 8 →
          (lacksA → refused .quotaAccount)
          ∧ (¬ lacksA → lacksT → refused .quotaTenant)
          ∧ (¬ lacksA → ¬ lacksT → gives (({ d with
              accounts := d.accounts.put {} acct { d.accountTotals acct with
                reserved := (d.accountTotals acct).reserved + est }
              tenants := d.tenants.put {} tenant { d.tenantTotals tenant with
                reserved := (d.tenantTotals tenant).reserved + est }
              tickets := d.tickets.put none r.ticket (some { k with
                phase := .queued ⟨q, est, (d.settings q).rateClass, rates⟩, reprint := false, lastRefusal := none })
              queues := d.queues.put [] q (d.queue q ++ [r.ticket]) } : Device).consider q) .released name))))

/-- A queue considered for promotion: its head, when QUEUED and the printer is releasable for it, becomes PRINTING with the grant not
taken and the completion deadline set, the printer's PRINTING accumulators become 0, and a grant entry joins the grant queue's tail;
while that queue holds 32 the printer waits at the tail of the waiting list instead, at most once; without such a head it leaves that list
(R113, R114). That a printer already in that list keeps its place, whatever head it has now, is log entry 43. -/
def Obligations.QueueHeadIsPromotedOrWaits : Prop :=
  ∀ (d : Device) (p : Nat),
    (∀ n rest t adm, d.queue p = n :: rest → d.ticket n = some t → t.phase = .queued adm →
      (d.printer p).derived = .online ∨ (d.printer p).derived = .degradedMono ∧ t.colour = 0 →
      (d.grants.length < 32 → d.consider p = ({ d with
        tickets := d.tickets.put none n (some { t with
          phase := .printing adm false (after d.uptime (d.work.completionMinutes * 60)) })
        printers := d.printers.put {} p { d.printer p with printing := {} }
        grants := d.grants ++ [⟨t.jobId, n, p⟩]
        waiting := d.waiting.filter (· ≠ p) } : Device).raise .grantsWaiting)
      ∧ (32 ≤ d.grants.length → d.consider p = { d with
        waiting := if p ∈ d.waiting then d.waiting else d.waiting ++ [p] }))
    ∧ ((∀ n rest t adm, d.queue p = n :: rest → d.ticket n = some t → t.phase = .queued adm →
        ¬ ((d.printer p).derived = .online ∨ (d.printer p).derived = .degradedMono ∧ t.colour = 0)) →
      d.consider p = { d with waiting := d.waiting.filter (· ≠ p) })

/-- A page of a listing. The eligible tickets are the account's HELD tickets whose target is printer Q, Q's release group, or a configured printer
of that group, each once, by rising submit sequence; four make a page, there is at least one page, and a requested page outside is clamped. The page
holds its tickets in that order, each with title or job id, sides, sheets, colour mark, estimate at Q's class, reprint mark and the first availability
mark that holds; the page number and count, the number of eligible tickets, the smaller remaining budget floored at 0 or UNLIMITED, and Q's readiness;
and its references are their ticket slots and job ids (R65, R85, R97, R105, R106). -/
def Obligations.ListingPageHoldsItsEntries : Prop :=
  ∀ (d : Device) (acct q n : Nat), d.tickets.wf none = true →
    let all := d.eligibleTickets acct q
    let page := d.listingPage acct q n
    let shown := (all.drop (4 * (page.number - 1))).take 4
    let takes := fun (p : Nat) (k : Ticket) =>
      (d.printer p).derived = .online ∨ (d.printer p).derived = .degradedMono ∧ k.colour = 0
    let left := fun allowance used reserved : Nat => (allowance : Int) - used - reserved
    let tenant := (d.accountSettings acct).tenant
    let budgetA := left (d.accountSettings acct).allowance (d.accountTotals acct).used (d.accountTotals acct).reserved
    let budgetT := left (d.tenantSettings tenant).allowance (d.tenantTotals tenant).used (d.tenantTotals tenant).reserved
    let freeA := (d.accountSettings acct).allowance = 4294967295
    let freeT := (d.tenantSettings tenant).allowance = 4294967295
    (∀ m k, (m, k) ∈ all ↔ d.ticket m = some k ∧ k.owner = acct ∧ k.phase = .held
      ∧ (k.target = .printer q ∨ k.target = .group (d.settings q).group
        ∨ ∃ p, k.target = .printer p ∧ d.configured p = true ∧ (d.settings p).group = (d.settings q).group))
    ∧ all.Pairwise (fun x y => x.2.sequence.toNat ≤ y.2.sequence.toNat) ∧ (all.map Prod.fst).Nodup
    ∧ page.count = max 1 ((all.length + 3) / 4) ∧ page.number = max 1 (min n page.count) ∧ page.eligible = all.length
    ∧ page.entries.length = shown.length
    ∧ (∀ (j m : Nat) (k : Ticket), shown[j]? = some (m, k) → ∃ x, page.entries[j]? = some x
      ∧ x.name = (match k.title with | some text => JobName.title text | none => .jobId k.jobId)
      ∧ x.sides = k.mono + k.colour ∧ x.sheets = k.sheets ∧ (x.colourMark = true ↔ 0 < k.colour)
      ∧ x.estimate = charge (d.rates (d.settings q).rateClass) k.size k.mono k.colour k.sheets ∧ x.reprint = k.reprint
      ∧ (let other := ∃ p, k.target = .printer p ∧ p ≠ q ∧ takes p k
        let grey := 0 < k.colour ∧ (d.printer q).derived = .degradedMono
        (other → x.availability = .atOther) ∧ (¬ other → grey → x.availability = .colourUnavailable)
        ∧ (¬ other → ¬ grey → x.availability = .available)))
    ∧ d.listingRefs acct q n = shown.map (fun x => ⟨x.1, x.2.jobId⟩)
    ∧ page.budget = (if freeA then (if freeT then none else some budgetT.toNat)
      else if freeT then some budgetA.toNat else some (min budgetA budgetT).toNat)
    ∧ page.readiness = (match (d.printer q).derived with
      | .online => .taking
      | .degradedMono => .monoOnly
      | .unconfigured | .retired | .service | .faulted | .holdoff => .notTaking)

/-- The other keys of LISTING. RELEASE ALL takes every eligible ticket, on every page and in listing order, through the checks of RELEASE on
the device that the tickets before it left: one that passes all is released as RELEASE does and counted, another keeps its refusal; RESULT shows
the number released and the first refusal, follow-up page 1; with no refusal every entry was released. CANCEL n of an eligible HELD ticket takes it out of the
store with reason TERMINAL_CANCEL and shows the listing at the same page; of any other entry it shows TICKET_GONE and changes no ticket.
NEXT PAGE shows the next page, or page 1 after the last (R105, R107 to R110, R137). That RELEASE ALL leaves the session's page and
references as they were is log entry 33, and that its RESULT carries no code log entry 44. -/
def Obligations.ListingKeysActOnThePage : Prop :=
  ∀ (s : State) (line a i acct page : Nat) (toggle : Bool) (old : Time) (refs : List PageRef),
    s.device.running = true → s.device.awaits line a i → (s.device.terminal i).presence = .present →
    (s.device.terminal i).ack ≠ toggle → (s.device.terminal i).session = .listing acct old page refs →
    let d := s.device
    let q := (d.terminalSettings i).printer
    let idle := d.idleAt line
    let t := (d.terminal i).accepted d.uptime idle toggle
    let d0 := d.withTerminal i t
    let same := Session.listing acct idle page refs
    let count := (d.eligibleTickets acct q).length
    let pages := max 1 ((count + 3) / 4)
    let w := d0.releaseWalk acct q
    let takes := fun (x : Device) (p : Nat) (k : Ticket) =>
      (x.printer p).derived = .online || ((x.printer p).derived = .degradedMono && k.colour = 0)
    let estimate := fun (x : Device) (k : Ticket) =>
      charge (x.rates (x.settings q).rateClass) k.size k.mono k.colour k.sheets
    let tenant := (d.accountSettings acct).tenant
    let lacks := fun (est allowance used reserved : Nat) =>
      est ≠ 0 ∧ allowance ≠ 4294967295 ∧ (allowance : Int) - used - reserved < est
    let outcome := fun (x : Device) (k : Ticket) => (
      if (match k.target with | .printer p => decide (p ≠ q) && takes x p k | .group _ => false) = true then .notHere
      else if (x.printer q).derived ≠ .online ∧ (x.printer q).derived ≠ .degradedMono then .printerUnavailable
      else if 0 < k.colour ∧ (x.printer q).derived = .degradedMono then .colourUnavailable
      else if 0 < k.colour ∧ ¬ ((x.accountSettings acct).colour = true ∧ (x.tenantSettings tenant).colour = true) then
        .colourNotPermitted
      else if 8 ≤ (x.queue q).length then .queueFull
      else if lacks (estimate x k) (x.accountSettings acct).allowance (x.accountTotals acct).used
        (x.accountTotals acct).reserved then .quotaAccount
      else if lacks (estimate x k) (x.tenantSettings tenant).allowance (x.tenantTotals tenant).used
        (x.tenantTotals tenant).reserved then .quotaTenant
      else .released : ReleaseOutcome)
    let queued := fun (x : Device) (n : Nat) (k : Ticket) => ({ x with
      accounts := x.accounts.put {} acct { x.accountTotals acct with
        reserved := (x.accountTotals acct).reserved + estimate x k }
      tenants := x.tenants.put {} tenant { x.tenantTotals tenant with
        reserved := (x.tenantTotals tenant).reserved + estimate x k }
      tickets := x.tickets.put none n (some { k with
        phase := .queued ⟨q, estimate x k, (x.settings q).rateClass, x.rates (x.settings q).rateClass⟩
        reprint := false, lastRefusal := none })
      queues := x.queues.put [] q (x.queue q ++ [n]) } : Device).consider q
    let walked := fun (w : Walk) (x : Nat × Ticket) => (
      let k := x.2
      let o := outcome w.device k
      if o = .released then ⟨queued w.device x.1 k, w.released + 1, w.first⟩
      else ⟨{ w.device with tickets := w.device.tickets.put none x.1 (some { k with lastRefusal := some o }) },
        w.released, match w.first with | some first => some first | none => some o⟩ : Walk)
    (d.tickets.wf none = true → w = (d.eligibleTickets acct q).foldl walked ⟨d0, 0, none⟩)
    ∧ (exec (.releaseAll line toggle) s = .next { s with
        device := (w.device.withTerminal i
          (t.showing (.result none (.walk w.released w.first)) (some (.jobList 1)) same)).advance line a }
      ∧ w.released ≤ count ∧ (w.first = none ↔ w.released = count) ∧ w.device.terminals = d0.terminals
      ∧ w.device.ground = d.ground)
    ∧ (∀ n r k, 1 ≤ n → n ≤ 4 → refs[n - 1]? = some r → d.ticket r.ticket = some k → k.jobId = r.jobId →
      d.eligible acct q k = true →
      let gone := ({ d with
        tickets := d.tickets.put none r.ticket none
        accounts := d.accounts.put {} acct { d.accountTotals acct with
          held := (d.accountTotals acct).held - 1 } } : Device).addRemoval
            ⟨k.jobId, acct, r.ticket, .terminalCancel, none, d.uptime⟩
      exec (.cancel line toggle n) s = .next { s with
        device := (gone.withTerminal i (gone.listed i acct idle page t)).advance line a })
    ∧ (∀ n, 1 ≤ n → n ≤ 4 →
      (∀ r k, refs[n - 1]? = some r → d.ticket r.ticket = some k → k.jobId = r.jobId →
        d.eligible acct q k = false) →
      exec (.cancel line toggle n) s = .next { s with
        device := (d.withTerminal i
          (t.showing (.result (some (.release .ticketGone)) .nothing) (some (.jobList page)) same)).advance line a })
    ∧ exec (.nextPage line toggle) s = .next { s with
        device := (d.withTerminal i
          (d.listed i acct idle (if pages < page + 1 then 1 else page + 1) t)).advance line a }

/-- ATTEND in SERVICE_MENU at a live printer not in SERVICE puts it in SERVICE: its record becomes ATTENDED by the technician, or, without
one, it leaves the pending list. The release queue empties: the PRINTING ticket is settled from the accumulators and leaves the store, or is HELD
with the reprint mark where all three are 0, its grant entry goes and its stall timing ends; each QUEUED one is HELD again, or gone where it has
expired. In SERVICE an ATTENDED record changes its technician. SERVICE DONE at a printer in SERVICE clears sides
since service, SERVICE_DUE and every latched inactive class, and takes it out of SERVICE; with latched callout classes left its record is
redispatched with them, level and revisits up by 1, or, without a record, the lowest free one opens for them with the first activation code among
them, or the printer joins the pending list (the class of an entry without a code is log entry 31), and the outcome is REVISIT; else DONE and the
record is freed and goes to the first pending printer that needs it.
An unconfigured or retired printer gives NOT_AVAILABLE and one not in SERVICE NOT_IN_SERVICE, without effect. Each outcome becomes the
session's last and is shown on SERVICE, with slot, name and state of the printer and its record (whole minutes to the deadline rounded down, log
entry 34), its place in the pending list (log entry 42), or neither (R37, R46, R48, R50, R53 to R55, R133, R138). -/
def Obligations.ServiceKeysMoveThePrinter : Prop :=
  ∀ (s : State) (line a i acct : Nat) (toggle : Bool) (old : Time) (last : Option ServiceOutcome),
    s.device.running = true → s.device.awaits line a i → (s.device.terminal i).presence = .present →
    (s.device.terminal i).ack ≠ toggle → (s.device.terminal i).session = .serviceMenu acct old last →
    s.device.callouts.wf none = true →
    let d := s.device
    let q := (d.terminalSettings i).printer
    let idle := d.idleAt line
    let t := (d.terminal i).accepted d.uptime idle toggle
    let shows := fun (c : Instr) (e : Device) (o : ServiceOutcome) =>
      exec c s = .next { s with device := (e.withTerminal i
        (t.showing (e.serviceScreen i (some o)) none (.serviceMenu acct idle (some o)))).advance line a }
    let mine := fun n c => d.callout n = some c ∧ c.printer = q ∧ ∀ m k, d.callout m = some k → k.printer = q → m = n
    (∀ (x : Device) (o : Option ServiceOutcome),
      let screen := fun line => Screen.service (x.terminalSettings i).printer
        (x.settings (x.terminalSettings i).printer).name (x.printer (x.terminalSettings i).printer).derived line o
      (∀ n c, x.callouts.wf none = true → x.callout n = some c → c.printer = (x.terminalSettings i).printer →
        (∀ m k, x.callout m = some k → k.printer = c.printer → m = n) →
        x.serviceScreen i o = screen (match c.phase with
          | .opened t => .record c.serial .opened c.classes c.level (some (secondsLeft x.uptime t / 60))
          | .dispatched t => .record c.serial .dispatched c.classes c.level (some (secondsLeft x.uptime t / 60))
          | .attended _ => .record c.serial .attended c.classes c.level none))
      ∧ ((∀ n c, x.callout n = some c → c.printer ≠ (x.terminalSettings i).printer) →
        x.serviceScreen i o = screen (match x.pendingList.findIdx? fun e => e.printer = (x.terminalSettings i).printer with
          | some n => .pendingAt n
          | none => .neither)))
    ∧ (d.live q = false → shows (.attend line toggle) d .notAvailable ∧ shows (.serviceDone line toggle) d .notAvailable)
    ∧ (d.live q = true → (d.printer q).inService = true →
      (∀ n c tech, mine n c → c.phase = .attended tech → shows (.attend line toggle)
        { d with callouts := d.callouts.put none n (some { c with phase := .attended acct }) } .alreadyInService)
      ∧ ((∀ n c, d.callout n = some c → c.printer ≠ q) → shows (.attend line toggle) d .alreadyInService))
    ∧ (d.live q = true → (d.printer q).inService = false → shows (.serviceDone line toggle) d .notInService)
    ∧ (d.live q = true → (d.printer q).inService = false → ∃ e o, shows (.attend line toggle) e o
      ∧ e.ground = d.ground ∧ (e.printer q).derived = .service
      ∧ (e.printer q).counters = { (d.printer q).counters with inService := true }
      ∧ (∀ n c, mine n c → o = .attended
        ∧ e.callouts = d.callouts.put none n (some { c with phase := .attended acct }))
      ∧ ((∀ n c, d.callout n = some c → c.printer ≠ q) → o = .checkedIn ∧ e.callouts = d.callouts
        ∧ e.pendingList = d.pendingList.filter (·.printer ≠ q))
      ∧ (d.queuesInStep → d.tickets.wf none = true → (d.printer q).derived ≠ .service →
        e.queue q = []
        ∧ (∀ n k b, n ∈ d.queue q → d.ticket n = some k → k.phase = .queued b →
          e.ticket n = if passed d.uptime k.expiry then none else some { k with phase := .held })
        ∧ (∀ n k b taken deadline, n ∈ d.queue q → d.ticket n = some k → k.phase = .printing b taken deadline →
          let acc := (d.printer q).printing
          let cu := charge b.snapRates k.size (min 9999 acc.mono) (min 9999 acc.colour) (min 9999 acc.sheets)
          let tenant := (d.accountSettings k.owner).tenant
          (∀ g ∈ e.grants, g.ticket ≠ n)
          ∧ (e.printer q).lastAdvance = none ∧ (e.fault q .stall).active = false
          ∧ (d.queue q = [n] →
            (e.accountTotals k.owner).reserved = (d.accountTotals k.owner).reserved - b.reservation
            ∧ (e.tenantTotals tenant).reserved = (d.tenantTotals tenant).reserved - b.reservation)
          ∧ (acc = {} → e.ticket n =
              (if passed d.uptime k.expiry then none else some { k with phase := .held, reprint := true })
            ∧ (e.accountTotals k.owner).used = (d.accountTotals k.owner).used)
          ∧ (acc ≠ {} → e.ticket n = none
            ∧ (e.accountTotals k.owner).used = min 4294967295 ((d.accountTotals k.owner).used + cu)
            ∧ (e.tenantTotals tenant).used = min 4294967295 ((d.tenantTotals tenant).used + cu)
            ∧ ⟨k.jobId, k.owner, n, .serviceSettled, some cu, d.uptime⟩ ∈ e.removals))))
    ∧ (d.live q = true → (d.printer q).inService = true →
      let remaining := fun cls => cls ≠ .serviceDue && (d.fault q cls).latched && (d.fault q cls).active
        && (d.policy cls).callout
      let none_ := ∀ n c, d.callout n = some c → c.printer ≠ q
      let code := (FaultClass.all.filter remaining).findSome? fun cls => (d.fault q cls).code
      ∃ e o, shows (.serviceDone line toggle) e o ∧ e.ground = d.ground
        ∧ (e.printer q).counters = { (d.printer q).counters with inService := false, sinceService := 0 }
        ∧ (e.fault q .serviceDue).active = false
        ∧ (∀ cls, cls ≠ .serviceDue → e.fault q cls =
          if (d.fault q cls).latched = true ∧ (d.fault q cls).active = false then
            { d.fault q cls with latched := false, count := 0, window := none }
          else d.fault q cls)
        ∧ ((∃ cls, remaining cls = true) → o = .revisit
          ∧ (∀ n c, mine n c → ∃ c', e.callouts = d.callouts.put none n (some c')
            ∧ (∀ cls, c'.classes.get cls = remaining cls)
            ∧ c' = { c with
                classes := c'.classes
                phase := .dispatched (after d.uptime (d.responseTime c'.classes))
                level := min 3 (c.level + 1), revisits := min 255 (c.revisits + 1) })
          ∧ (none_ → ∀ n, n < 32 → d.callout n = none → (∀ m, m < n → d.callout m ≠ none) →
            e.pendingList = d.pendingList ∧ ∃ k, e.callouts = d.callouts.put none n (some k) ∧ k.printer = q
              ∧ (∀ cls, k.classes.get cls = remaining cls) ∧ k.firstCode = code
              ∧ k.phase = .opened (after d.uptime (d.responseTime k.classes)) ∧ k.level = 0 ∧ k.revisits = 0)
          ∧ (none_ → (∀ n, n < 32 → d.callout n ≠ none) → e.callouts = d.callouts
            ∧ (d.isPending q = true → e.pendingList = d.pendingList)
            ∧ (d.isPending q = false → ∃ cls, remaining cls = true
              ∧ (∀ f, (FaultClass.all.filter remaining).find? (fun x => (d.fault q x).code.isSome) = some f → cls = f)
              ∧ e.pendingList = d.pendingList ++ [⟨q, cls, code, d.uptime⟩])))
        ∧ ((∀ cls, remaining cls = false) → o = .done
          ∧ (none_ → e.callouts = d.callouts ∧ e.pendingList = d.pendingList)
          ∧ ∀ n c, mine n c → d.handsRecordOn e n))

/-- LOGOUT and an idle deadline that has passed end an open session with WELCOME; a follow-up deadline that has passed makes its screen,
JOB LIST built afresh while the session is in LISTING and WELCOME else; before their deadlines nothing happens. A key that names none of
the keys, a RELEASE or CANCEL outside 1 to 4, and every key in a state that gives it no effect, is accepted and does nothing more, and so is a
PIN without a session. A repeated event, BADGE, PIN or any key, delivers the screen alone; an event of a terminal that is ABSENT is not taken, and
in JOINING it is an answer that is not READY. The deadlines are taken whatever the line does (R126, R128, R129, R131, R132, R134, R136 to R139). That a RELEASE or CANCEL outside 1 to 4 acts as an
unknown key, and that a deadline command does nothing before its deadline, is log entry 1. -/
def Obligations.SessionsEndAndFollowUpsShow : Prop :=
  (∀ (s : State) (line a i : Nat) (toggle : Bool), s.device.running = true → s.device.awaits line a i →
    let d := s.device
    let idle := d.idleAt line
    let t := (d.terminal i).accepted d.uptime idle toggle
    let key := fun c : Instr => (∃ n, c = .release line toggle n) ∨ c = .releaseAll line toggle
      ∨ (∃ n, c = .cancel line toggle n) ∨ c = .nextPage line toggle ∨ c = .logout line toggle
      ∨ c = .attend line toggle ∨ c = .serviceDone line toggle ∨ ∃ code, c = .unknownKey line toggle code
    let event := fun c : Instr =>
      key c ∨ (∃ token, c = .badge line toggle token) ∨ ∃ digest, c = .pin line toggle digest
    let becomes := fun (c : Instr) (u : Terminal) =>
      exec c s = .next { s with device := (d.withTerminal i u).advance line a }
    ((d.terminal i).presence = .absent → ∀ c, event c → exec c s = .next { s with device := d.advance line a })
    ∧ ((d.terminal i).presence = .joining → ∀ c, event c → becomes c
      (if (d.terminal i).joinPolls < 3 then d.terminal i
        else { d.terminal i with presence := .absent, joinedSerial := none, joinPolls := 0 }))
    ∧ ((d.terminal i).presence = .present → (d.terminal i).ack = toggle →
      ∀ c, event c → becomes c ((d.terminal i).answered d.uptime))
    ∧ ((d.terminal i).presence = .present → (d.terminal i).ack ≠ toggle →
      (t.session ≠ .none → becomes (.logout line toggle) (d.welcomed i t))
      ∧ (t.session = .none → (∀ c, key c → becomes c t) ∧ ∀ digest, becomes (.pin line toggle digest) t)
      ∧ (∀ code, becomes (.unknownKey line toggle code) t)
      ∧ (∀ n, n = 0 ∨ 4 < n → becomes (.release line toggle n) t ∧ becomes (.cancel line toggle n) t)
      ∧ (∀ n x, t.session = .pinWait n x → ∀ c, key c → c ≠ .logout line toggle → becomes c t)
      ∧ (∀ n x p refs, t.session = .listing n x p refs →
        becomes (.attend line toggle) t ∧ becomes (.serviceDone line toggle) t)
      ∧ (∀ n x last, t.session = .serviceMenu n x last → ∀ k, becomes (.release line toggle k) t
        ∧ becomes (.cancel line toggle k) t ∧ becomes (.releaseAll line toggle) t ∧ becomes (.nextPage line toggle) t)))
  ∧ ∀ (s : State) (i : Nat), s.device.running = true →
    let d := s.device
    (∀ x, (d.terminal i).presence = .present → (d.terminal i).session.idle = some x →
      (passed d.uptime x = true → exec (.idleDeadline i) s = .next { s with
        device := d.withTerminal i (d.welcomed i (d.terminal i)) })
      ∧ (passed d.uptime x = false → exec (.idleDeadline i) s = .next s))
    ∧ (∀ x kind, (d.terminal i).presence = .present → (d.terminal i).follow = some (x, kind) →
      let welcome := (d.welcomed i (d.terminal i)).pending
      (passed d.uptime x = false → exec (.followUp i) s = .next s)
      ∧ (passed d.uptime x = true →
        (kind = .welcome → exec (.followUp i) s = .next { s with
          device := d.withTerminal i { d.terminal i with pending := welcome, follow := none } })
        ∧ (∀ p, kind = .jobList p →
          (∀ n old k refs, (d.terminal i).session = .listing n old k refs → exec (.followUp i) s = .next { s with
            device := d.withTerminal i (d.listed i n old p (d.terminal i)) })
          ∧ ((∀ n old k refs, (d.terminal i).session ≠ .listing n old k refs) → exec (.followUp i) s = .next { s with
            device := d.withTerminal i { d.terminal i with pending := welcome, follow := none } }))))

/-! ## Supplies -/

/-- A channel's level byte, where it is neither UNKNOWN nor marked absent. A first reading sets P and Pk and clears the anchor. At
least the swap threshold above Pk it is an install: consumption-active is cleared, the last sample forgotten, the rate kept, and one spare of
a configured kind leaves on hand. Below Pk it is a drop: the anchor over the fall, clamped to 1 to 65,535, is the sample, to which the rate is
set or moved by the difference over 2 to the power k, and which is judged against the floor; in SERVICE nothing is measured. Else P alone moves. D
is recomputed, and no other channel's record moves. A printer is low while a channel of its set has D at most the warning, out while one has P = 0;
from stored values that are current the level leaves them current, raises SUPPLY_LOW or SUPPLY_OUT for the slot as the printer becomes low or out, and
raises neither else. An install of a configured kind with none on hand raises UNSTOCKED_INSTALL; with spares the count that has fallen loses its
declined hold and evaluates the kind; and a D that crosses the kind's lead time, by a level or an absence mark, evaluates the kind with the new
demand (R25, R145 to R151, R160, R161, R165). -/
def Obligations.LevelsMoveTheForecast : Prop :=
  ∀ (d : Device) (p : Nat) (ch : Channel) (byte : Nat), p < 128 → byte ≤ 100 ∨ byte = 255 →
    let f := d.forecast p ch
    let level := if ch = .waste then 100 - byte else byte
    let throughput := if ch = .c ∨ ch = .m ∨ ch = .y then (d.printer p).throughputColour else (d.printer p).throughputAll
    let days := fun rate : Option Nat =>
      if level = 0 then some 0
      else match rate, throughput with
        | none, _ => none
        | some _, none => some 999
        | some r, some t => if t = 0 then some 999 else some (min 999 (level * r / t))
    let e := d.takeLevel p ch byte
    let installs := byte ≤ 100 ∧ (d.printer p).marks.get ch = false
      ∧ ∃ known, f.pk = some known ∧ known + d.work.forecast.swap ≤ level
    let counts := fun (k : Nat) (x : Device) =>
      (x.forecast p ch).days.any fun n => n < (d.kindSettings k).leadTime && n < 999
    let follows := fun now base : Device => match (d.settings p).kinds.get ch with
      | none => now.stocksAs base
      | some k => now.stocksAs
        (if counts k d = counts k now then base else ({ base with printers := now.printers } : Device).evaluate k)
    (byte = 255 ∨ (d.printer p).marks.get ch = true → e = d)
    ∧ (byte ≤ 100 → (d.printer p).marks.get ch = false →
      (f.pk = none →
        e.forecast p ch = { f with p := some level, pk := some level, anchor := 0, days := days f.rate })
      ∧ (∀ known, f.pk = some known →
        (known + d.work.forecast.swap ≤ level →
          e.forecast p ch = { f with
            p := some level, pk := some level, anchor := 0, consuming := false, lastSample := none, days := days f.rate }
          ∧ ∀ k, (e.kind k).onHand =
            if (d.settings p).kinds.get ch = some k ∧ (d.kindSettings k).configured = true then (d.kind k).onHand - 1
            else (d.kind k).onHand)
        ∧ (level < known → level < known + d.work.forecast.swap → (d.printer p).inService = true →
          e.forecast p ch = { f with p := some level, pk := some level, anchor := 0, days := days f.rate })
        ∧ (level < known → level < known + d.work.forecast.swap → (d.printer p).inService = false →
          let sample := max 1 (min 65535 (f.anchor / (known - level)))
          let rate := match f.rate with
            | none => sample
            | some r => ((r : Int) + ((sample : Int) - r).tdiv (2 ^ d.work.forecast.shift)).toNat
          e.forecast p ch = { f with
            p := some level, pk := some level, anchor := 0, rate := some rate, lastSample := some sample
            consuming := sample < d.work.forecast.floor ch, days := days (some rate) })
        ∧ (known ≤ level → level < known + d.work.forecast.swap →
          e.forecast p ch = { f with p := some level, days := days f.rate })))
    ∧ (∀ q j, q ≠ p ∨ j ≠ ch → e.forecast q j = d.forecast q j)
    ∧ (∀ marked, follows (d.setMark p ch marked) d)
    ∧ (¬ installs → follows e d ∧ e.stamp .unstockedInstall p = d.stamp .unstockedInstall p)
    ∧ (installs →
      ((∀ k, (d.settings p).kinds.get ch = some k → (d.kindSettings k).configured = false) →
        follows e d ∧ e.stamp .unstockedInstall p = d.stamp .unstockedInstall p)
      ∧ ∀ k, (d.settings p).kinds.get ch = some k → (d.kindSettings k).configured = true →
        ((d.kind k).onHand = 0 → follows e d
          ∧ (d.enabled .unstockedInstall = true → e.stamp .unstockedInstall p ≠ none))
        ∧ ((d.kind k).onHand ≠ 0 → e.stamp .unstockedInstall p = d.stamp .unstockedInstall p
          ∧ follows e (({ d with stock := d.stock.put {} k { d.kind k with
              onHand := (d.kind k).onHand - 1, hold := false } } : Device).evaluate k)))
    ∧ (let low := fun x : Device => x.live p = true ∧ ∃ j days, (x.settings p).channels.get j = true
        ∧ (x.forecast p j).days = some days ∧ days ≤ x.work.forecast.lowWarning
      let out := fun x : Device => x.live p = true ∧ ∃ j, (x.settings p).channels.get j = true
        ∧ (x.forecast p j).p = some 0
      ((d.printer p).low = true ↔ low d) → ((d.printer p).out = true ↔ out d) →
        ((e.printer p).low = true ↔ low e) ∧ ((e.printer p).out = true ↔ out e)
        ∧ (¬ low d → low e → d.enabled .supplyLow = true → e.stamp .supplyLow p ≠ none)
        ∧ (¬ out d → out e → d.enabled .supplyOut = true → e.stamp .supplyOut p ≠ none)
        ∧ (low d ∨ ¬ low e → e.stamp .supplyLow p = d.stamp .supplyLow p)
        ∧ (out d ∨ ¬ out e → e.stamp .supplyOut p = d.stamp .supplyOut p))

/-- DAY ROLLOVER, when the running wall clock has reached the kept instant: at each configured slot that is not RETIRED both throughputs are set
to, or smoothed toward, the day's counts, the daily accumulators become 0 and D of each channel of the set is recomputed; a RETIRED slot keeps its
records; every declined hold is cleared; on hand stays; each kind whose demand changed or whose hold was set is evaluated once, in ascending number
(log entry 45); each printer is judged low and out by its new days, and SUPPLY_LOW or SUPPLY_OUT is raised for
a slot that becomes so and for no other; and the next instant is the next value of the clock at the rollover hour, here where the
clock does not wrap before it. Before the instant, and while the clock is invalid, nothing happens (R149, R151 to R153, R160, R161, R165); that DAY_ROLLOVER then
leaves the state is log entry 1, and how a clock that wraps reaches the instant log entry 56. -/
def Obligations.DayRolloverSmoothsTheThroughputs : Prop :=
  ∀ s : State, s.device.running = true → s.device.canonical → s.device.work.forecast.rolloverHour ≤ 23 →
    s.device.wall.toNat + 86400 < 2 ^ 32 → (∀ p, s.device.configured p = true → p < 128) →
    let d := s.device
    let due := d.wallValid = true ∧ ∃ x, d.nextRollover = some x ∧ passed d.wall x = true
    let smoothed := fun (old : Option Nat) (count : Nat) => match old with
      | none => min 65535 count
      | some t => min 65535 ((t : Int) + ((count : Int) - t).tdiv (2 ^ d.work.forecast.dayShift)).toNat
    (¬ due → exec .dayRollover s = .next s)
    ∧ (due → ∃ e next, exec .dayRollover s = .next { s with device := e } ∧ e.ground = d.ground
      ∧ e.nextRollover = some next ∧ next.toNat % 86400 = d.work.forecast.rolloverHour * 3600
      ∧ d.wall.toNat < next.toNat ∧ next.toNat ≤ d.wall.toNat + 86400
      ∧ (∀ p, d.live p = false → e.printer p = d.printer p)
      ∧ (∀ p, d.live p = true →
        (e.printer p).counters = { (d.printer p).counters with dailyAll := 0, dailyColour := 0 }
        ∧ (e.printer p).throughputAll = some (smoothed (d.printer p).throughputAll (d.printer p).dailyAll)
        ∧ (e.printer p).throughputColour = some (smoothed (d.printer p).throughputColour (d.printer p).dailyColour)
        ∧ ∀ ch, (d.settings p).channels.get ch = true → e.forecast p ch = { d.forecast p ch with
            days := daysToEmpty (d.forecast p ch).p (d.forecast p ch).rate
              (if ch = .c ∨ ch = .m ∨ ch = .y then (e.printer p).throughputColour else (e.printer p).throughputAll) })
      ∧ (∀ p, d.live p = true →
        let low := ∃ j days, (d.settings p).channels.get j = true ∧ (e.forecast p j).days = some days
          ∧ days ≤ d.work.forecast.lowWarning
        let out := ∃ j, (d.settings p).channels.get j = true ∧ (e.forecast p j).p = some 0
        ((e.printer p).low = true ↔ low) ∧ ((e.printer p).out = true ↔ out)
        ∧ ((d.printer p).low = false → low → d.enabled .supplyLow = true → e.stamp .supplyLow p ≠ none)
        ∧ ((d.printer p).out = false → out → d.enabled .supplyOut = true → e.stamp .supplyOut p ≠ none)
        ∧ ((d.printer p).low = true ∨ ¬ low → e.stamp .supplyLow p = d.stamp .supplyLow p)
        ∧ ((d.printer p).out = true ∨ ¬ out → e.stamp .supplyOut p = d.stamp .supplyOut p))
      ∧ (∀ k, (e.kind k).hold = false ∧ (e.kind k).onHand = (d.kind k).onHand)
      ∧ e.stocksAs (({ d with
          printers := e.printers
          stock := d.stock.mapAll {} fun k => { k with hold := false } } : Device).evaluatedAt fun k =>
        (d.kind k).hold || d.demandDiffers e k)
      ∧ e.terminals = d.terminals ∧ e.tickets = d.tickets ∧ e.callouts = d.callouts)

/-! ## Stock and orders -/

/-- A kind evaluated for a proposal. Configured, below its reorder point, without an order in PROPOSED and without the declined hold, it opens
the lowest free order record with the first serial from the counter on that no record holds, for whole packs up to the order-up-to level, at most 255, and raises ORDER_PROPOSED; with no
free record it becomes blocked, and ORDER_BLOCKED is raised as it does; else it is not blocked. Nothing else changes (R160 to R163). -/
def Obligations.KindIsEvaluatedForAProposal : Prop :=
  ∀ (d : Device) (k : Nat), d.orders.wf none = true →
    let r := d.kindSettings k
    let position : Int := (d.kind k).onHand + d.onOrder k - d.demand k
    let wants := r.configured = true ∧ position < r.reorderPoint
      ∧ (∀ n o, d.order n = some o → o.kind = k → o.phase ≠ .proposed) ∧ (d.kind k).hold = false
    let blocked := fun b : Bool => d.stock.put {} k { d.kind k with blocked := b }
    let packs := (((r.orderUpTo : Int) - position).toNat + r.packSize - 1) / r.packSize
    (¬ wants → d.evaluate k = { d with stock := blocked false })
    ∧ (wants → (∀ n, n < 64 → d.order n ≠ none) →
      ((d.kind k).blocked = true → d.evaluate k = d)
      ∧ ((d.kind k).blocked = false → d.evaluate k = ({ d with stock := blocked true } : Device).raise .orderBlocked))
    ∧ (wants → ∀ n, n < 64 → d.order n = none → (∀ m, m < n → d.order m ≠ none) → (∀ m o, d.order m = some o → m < 64) →
      ∃ serial, d.evaluate k = { ({ d with
          orders := d.orders.put none n (some {
            serial := serial, kind := k, received := 0, phase := .proposed, proposedAt := d.uptime
            quantity := if packs * r.packSize ≤ 255 then packs * r.packSize else 255 / r.packSize * r.packSize
            proposedWall := if d.wallValid then some d.wall else none })
          orderSerial := serial + 1 } : Device).raise .orderProposed with stock := blocked false }
        ∧ firstFree (fun x => ∃ m o, d.order m = some o ∧ o.serial = x) d.orderSerial serial)

/-- APPROVE ORDER places a PROPOSED order, with a given quantity in place of the proposed one and the overdue deadline lead time plus grace
ahead, and replies with supplier, quantity and seconds; a changed quantity evaluates the kind. DECLINE ORDER frees a PROPOSED order and sets the
declined hold; CANCEL ORDER frees a placed one and evaluates the kind; a freed record is then offered to the blocked kinds alone (log entry 52), in
ascending number. In the other states they
answer STATE. A number above 63 and a quantity of 0 give BAD_FIELD, a free record or another serial NOT_FOUND. An overdue deadline that passes marks a
placed order once and raises ORDER_OVERDUE (R163 to R166, R169). That a quantity of 0 is answered before the record is looked at is log entry 48; that
OVERDUE_DEADLINE before its deadline, or on a marked order, leaves the state is log entry 1. -/
def Obligations.OrderRequestsMoveTheOrder : Prop :=
  ∀ (s : State) (tag : Byte) (n : Nat) (serial : BitVec 16), s.device.running = true → n < 256 →
    let d := s.device
    let name := toBytes 1 n ++ toBytes 2 serial.toNat
    let approve := fun q : Option Nat => exec .approveOrder (s.offer 0x5A tag (name ++ optBytes 1 q))
    let decline := exec .declineOrder (s.offer 0x5B tag name)
    let cancel := exec .cancelOrder (s.offer 0x5C tag name)
    let gives := fun (kind : Nat) (body : List Byte) (e : Device) =>
      (.next (s.reply kind tag body e) : Host.Outcome State Fault Refusal)
    let put := fun (o : Option Order) => d.orders.put none n o
    approve (some 0) = gives 0xDA [0x03] d
    ∧ (64 ≤ n → approve none = gives 0xDA [0x03] d ∧ decline = gives 0xDB [0x03] d ∧ cancel = gives 0xDC [0x03] d)
    ∧ (n < 64 → (∀ o, d.order n = some o → o.serial ≠ serial) →
      approve none = gives 0xDA [0x04] d ∧ decline = gives 0xDB [0x04] d ∧ cancel = gives 0xDC [0x04] d)
    ∧ (∀ o, n < 64 → d.order n = some o → o.serial = serial →
      let r := d.kindSettings o.kind
      let others := ∀ k, k < 16 → k ≠ o.kind → (d.kind k).blocked = false
      (o.phase = .proposed →
        (∀ q : Option Nat, q ≠ some 0 → (∀ x, q = some x → x < 256) →
          let quantity := q.getD o.quantity
          let due := (r.leadTime + r.grace) * 86400
          let placed : Device := { d with orders := put (some { o with
            quantity := quantity
            phase := .placed ⟨d.uptime, if d.wallValid then some d.wall else none, after d.uptime due, false⟩ }) }
          approve q = gives 0xDA (0x00 :: (toBytes 4 r.supplier ++ toBytes 1 quantity ++ toBytes 4 due))
            (if quantity = o.quantity then placed else placed.evaluate o.kind))
        ∧ cancel = gives 0xDC [0x05] d
        ∧ decline = gives 0xDB [0x00] (({ d with
          orders := put none, stock := d.stock.put {} o.kind { d.kind o.kind with hold := true } } : Device).evaluate
            o.kind).offered
        ∧ (others → decline = gives 0xDB [0x00] { d with
          orders := put none, stock := d.stock.put {} o.kind { d.kind o.kind with hold := true, blocked := false } }))
      ∧ (o.phase ≠ .proposed →
        approve none = gives 0xDA [0x05] d ∧ decline = gives 0xDB [0x05] d
        ∧ cancel = gives 0xDC [0x00] (({ d with orders := put none } : Device).evaluate o.kind).offered
        ∧ (others → cancel = gives 0xDC [0x00] (({ d with orders := put none } : Device).evaluate o.kind))))
    ∧ (∀ o p, d.order n = some o → o.phase = .placed p ∨ o.phase = .partially p →
      let marked : Placed := { p with marked := true }
      (passed d.uptime p.overdue = true → p.marked = false → exec (.overdueDeadline n) s = .next { s with
        device := ({ d with orders := put (some { o with
          phase := match o.phase with
            | .partially _ => .partially marked
            | _ => .placed marked }) } : Device).raise .orderOverdue })
      ∧ (passed d.uptime p.overdue = false ∨ p.marked = true → exec (.overdueDeadline n) s = .next s))

/-- ADJUST STOCK sets a configured kind's on hand, clears its declined hold and evaluates it; the reply carries the count before and after. RECEIVE
DELIVERY adds the quantity to the on hand of a placed order's kind, at most to 999, and to the order's received: below the quantity ordered the order
becomes PARTIAL and keeps its overdue mark, else its record is freed; a changed count clears the hold, the kind is evaluated, and a freed record is then
offered to the blocked kinds alone (log entry 52), in ascending number. Values out of range
give BAD_FIELD, an unconfigured kind, a free record or another serial NOT_FOUND, a PROPOSED order STATE (R163, R165, R167, R168). That CLOSED is 3 in the
reply is log entry 27, that a count or quantity out of range is answered first log entry 48. -/
def Obligations.StockCountsFollowDeliveriesAndAdjustments : Prop :=
  ∀ (s : State) (tag : Byte) (k q : Nat), s.device.running = true → k < 256 → q < 65536 →
    let d := s.device
    let adjust := exec .adjustStock (s.offer 0x59 tag (toBytes 1 k ++ toBytes 2 q))
    (16 ≤ k ∨ 999 < q → adjust = .next (s.reply 0xD9 tag [0x03] d))
    ∧ (k < 16 → q ≤ 999 → (d.kindSettings k).configured = false → adjust = .next (s.reply 0xD9 tag [0x04] d))
    ∧ (k < 16 → q ≤ 999 → (d.kindSettings k).configured = true →
      adjust = .next (s.reply 0xD9 tag (0x00 :: (toBytes 2 (d.kind k).onHand ++ toBytes 2 q))
        (({ d with stock := d.stock.put {} k { d.kind k with onHand := q, hold := false } } : Device).evaluate k)))
    ∧ (∀ serial : BitVec 16,
      let receive := exec .receiveDelivery (s.offer 0x5D tag (toBytes 1 k ++ toBytes 2 serial.toNat ++ toBytes 2 q))
      (64 ≤ k ∨ q = 0 ∨ 999 < q → receive = .next (s.reply 0xDD tag [0x03] d))
      ∧ (k < 64 → 1 ≤ q → q ≤ 999 →
        ((∀ o, d.order k = some o → o.serial ≠ serial) → receive = .next (s.reply 0xDD tag [0x04] d))
        ∧ (∀ o, d.order k = some o → o.serial = serial →
          (o.phase = .proposed → receive = .next (s.reply 0xDD tag [0x05] d))
          ∧ (∀ p, o.phase = .placed p ∨ o.phase = .partially p →
            let was := (d.kind o.kind).onHand
            let now := min 999 (was + q)
            let stock := d.stock.put {} o.kind { d.kind o.kind with
              onHand := now, hold := (d.kind o.kind).hold && was = now }
            (o.received + q < o.quantity → receive = .next (s.reply 0xDD tag
              (0x00 :: (toBytes 2 now ++ toBytes 2 (was + q - now) ++ [2]))
              (({ d with stock := stock, orders := d.orders.put none k (some { o with
                received := o.received + q, phase := .partially p }) } : Device).evaluate o.kind)))
            ∧ (o.quantity ≤ o.received + q → receive = .next (s.reply 0xDD tag
              (0x00 :: (toBytes 2 now ++ toBytes 2 (was + q - now) ++ [3]))
              (({ d with stock := stock, orders := d.orders.put none k none } : Device).evaluate o.kind).offered))
            ∧ (o.quantity ≤ o.received + q → (∀ j, j < 16 → j ≠ o.kind → (d.kind j).blocked = false) →
              receive = .next (s.reply 0xDD tag (0x00 :: (toBytes 2 now ++ toBytes 2 (was + q - now) ++ [3]))
                (({ d with stock := stock, orders := d.orders.put none k none } : Device).evaluate o.kind)))))))

/-! ## Attention, store, power and reading -/

/-- A raise whose individual enable is set raises the counter by 1 and sets the instance with the counter's new value as its stamp; with the enable
clear it has no effect. ACK ATTENTION takes 1 to 16 items, each naming one instance of an indexed flag, every instance of a flag, or every instance of
every flag of a group: each named instance is cleared, but not one whose stamp lies after the seen value or whose lasting cause holds, and STILL_ACTIVE lists
those with the reason; an item with an unknown flag, group or form, an index above 127 or an index for a device-wide flag gives BAD_FIELD, without effect.
SET ATTENTION ENABLES writes the 34 enables; an individual enable that becomes clear clears every instance of its flag, one that becomes set raises the
instances whose lasting cause holds, and nothing else changes (R178, R180, R181). An item's three bytes are log entry 26, the bytes of the enables log
entry 5, their order log entry 58, the order in which the instances are listed log entry 53, and the count byte that holds the low 8 bits
of their number, in a reply sent whole though it passes 1,020 bytes, log entry 9. -/
def Obligations.FlagsAreRaisedAcknowledgedAndEnabled : Prop :=
  (∀ (d : Device) (f : Flag) (i : Nat),
    (d.enabled f = true → d.raise f i = { d with attention := {
      stamps := d.attention.stamps.put none (f.number * 128 + i) (some (d.attention.counter + 1))
      counter := d.attention.counter + 1 } })
    ∧ (d.enabled f = false → d.raise f i = d))
  ∧ (∀ (s : State) (tag : Byte) (items : List (Nat × Nat × Nat)) (seen : Option (BitVec 32)), s.device.running = true →
    1 ≤ items.length → items.length ≤ 16 → (∀ x ∈ items, x.1 < 256 ∧ x.2.1 < 256 ∧ x.2.2 < 256) →
    s.device.attention.stamps.wf none = true →
    let d := s.device
    let ack := exec .ackAttention (s.offer 0x03 tag (BitVec.ofNat 8 items.length
      :: (items.flatMap fun x => toBytes 1 x.1 ++ toBytes 1 x.2.1 ++ toBytes 1 x.2.2) ++ optBytes 4 (seen.map (·.toNat))))
    let fits := fun x : Nat × Nat × Nat => x.1 = 0 ∧ (∃ f, Flag.ofNumber x.2.1 = some f ∧ f.indexed = true) ∧ x.2.2 < 128
      ∨ x.1 = 1 ∧ x.2.1 < 26 ∨ x.1 = 2 ∧ x.2.1 < 7
    let names := fun (f : Flag) (i : Nat) => items.any fun x => x.1 = 0 && x.2.1 = f.number && x.2.2 = i
      || x.1 = 1 && x.2.1 = f.number || x.1 = 2 && x.2.1 = f.group.number
    let later := fun st : BitVec 32 => seen.any fun v => 1 ≤ (st - v).toNat && (st - v).toNat ≤ 2147483647
    let stays := d.setFlags.filter fun x => names x.1 x.2.1 && (later x.2.2 || d.causeHolds x.1 x.2.1)
    ((∃ x ∈ items, ¬ fits x) → ack = .next (s.reply 0x83 tag [0x03] d))
    ∧ ((∀ x ∈ items, fits x) → ∃ e reply, ack = .next (s.reply 0x83 tag reply e)
      ∧ e = { d with attention := { d.attention with stamps := e.attention.stamps } }
      ∧ (∀ f i, i < 128 → e.stamp f i = (d.stamp f i).filter fun st =>
        !names f i || later st || d.causeHolds f i)
      ∧ (stays = [] → reply = [0x00])
      ∧ (stays ≠ [] → reply = 0x0B :: BitVec.ofNat 8 stays.length :: stays.flatMap fun x => toBytes 1 x.1.number
        ++ optBytes 1 (if x.1.indexed then some x.2.1 else none) ++ toBytes 1 (if later x.2.2 then 1 else 0))))
  ∧ (∀ (s : State) (tag : Byte) (g : Bool) (gs fs : List Bool), s.device.running = true → s.device.saving = false →
    gs.length = 7 → fs.length = 26 →
    let d := s.device
    let kept := fun (f : Flag) (i : Nat) => i < 128 ∧ (f.indexed = false → i = 0)
    ∃ e, exec .setAttentionEnables (s.offer 0x04 tag (boolByte g :: (gs.map boolByte ++ fs.map boolByte)))
        = .next (s.reply 0x84 tag [0x00] e)
      ∧ e = { d with work := { d.work with enables := e.work.enables }, attention := e.attention }
      ∧ e.work.enables.global = g ∧ (∀ group, e.groupEnabled group = gs.getD group.number true)
      ∧ (∀ f, e.enabled f = fs.getD f.number true)
      ∧ (∀ f i, kept f i →
        (d.enabled f = true → e.enabled f = false → e.stamp f i = none)
        ∧ (d.enabled f = false → e.enabled f = true → d.causeHolds f i = true → e.stamp f i ≠ none)
        ∧ (d.enabled f = e.enabled f → e.stamp f i = d.stamp f i)))

/-- COMMIT SETTINGS begins a save of the working copy; its end stores it, with a good checksum exactly when the image reads back equal, and raises
SETTINGS_SAVED or STORE_FAILED. SET TIME sets the clock and its valid flag and the next-rollover instant afresh, here where the clock does not wrap before
it. Main power loss and RSTN low end a running save and leave the image invalid; a dip of VBAT while main power is off sets the comparator record and leaves
the marker valid only if the memory kept its contents; power that comes while RSTN is low, and the release of RSTN without power, start nothing, and neither
does a command whose pin already stands so (R152, R185, R187, R189, R190). How a dip, and power and RSTN together, are taken is log entries 22 and
28; that SAVE END without a save, and a command whose pin already stands so, change nothing is log entry 1. -/
def Obligations.StoreClockAndPowerCommandsAct : Prop :=
  ∀ (s : State) (tag : Byte),
    let d := s.device
    let cut : Store := { d.store with saving := none, checksumGood := d.store.checksumGood && !d.saving }
    (d.running = true →
      (d.saving = false → exec .commitSettings (s.offer 0x08 tag []) = .next (s.reply 0x88 tag [0x00] { d with
        store := { d.store with saving := some d.work } }))
      ∧ (∀ equal, (d.store.saving = none → exec (.saveEnd equal) s = .next s)
        ∧ ∀ w, d.store.saving = some w → exec (.saveEnd equal) s = .next { s with
          device := ({ d with store := ⟨w, equal, none, if equal then .saved else .failed⟩ } : Device).raise
            (if equal then .settingsSaved else .storeFailed) })
      ∧ (∀ v : BitVec 32, d.work.forecast.rolloverHour ≤ 23 → v.toNat + 86400 < 2 ^ 32 →
        ∃ next, exec .setTime (s.offer 0x0A tag (toBytes 4 v.toNat)) = .next (s.reply 0x8A tag [0x00] { d with
            wall := v, wallValid := true, nextRollover := some next })
          ∧ next.toNat % 86400 = d.work.forecast.rolloverHour * 3600
          ∧ v.toNat < next.toNat ∧ next.toNat ≤ v.toNat + 86400))
    ∧ exec .mainPowerLoss s = .next { s with device := { d with mainPower := false, store := cut } }
    ∧ exec .externalResetAssert s = .next { s with device := { d with rstnLow := true, store := cut } }
    ∧ (∀ kept, exec (.batteryDip kept) s = .next (if d.mainPower then s else { s with
        device := { d with comparator := true, markerValid := d.markerValid && kept } }))
    ∧ (d.mainPower = true → exec .mainPowerOn s = .next s)
    ∧ (d.mainPower = false → d.rstnLow = true →
      exec .mainPowerOn s = .next { s with device := { d with mainPower := true } })
    ∧ (d.rstnLow = false → exec .externalReset s = .next s)
    ∧ (d.rstnLow = true → d.mainPower = false →
      exec .externalReset s = .next { s with device := { d with rstnLow := false } })

/-- A start at main power-on or at release of RSTN, and a SOFT RESET. The working copy becomes the stored image where its checksum is correct, and the
default image else; the store is IDLE with no outcome; every terminal is ABSENT; STARTED is set, and STORE_INVALID and CLOCK_INVALID where their cause was
found. The first two also clear the guard latch and, with the marker bad, lose the retained records: uptime, the wall clock and the period become 0, the
store, queues, lists, callouts and totals are empty, every configured slot is freshly configured, every count is 0, and the kinds whose reorder point is above 0
propose an order for their order-up-to; they set RETAINED_LOST and BATTERY_LOW where found, and the link is as new. A soft reset keeps clocks, period and latch, and is answered OK. The start that finds the
marker bad and the checksum wrong gives the reset state (R20, R41, R60, R73, R79, R121, R127, R157, R171, R182, R184, R185, R187 to R191). That State.reset is that start's state is log
entry 3; that the reply stays readable after a soft reset is log entry 17. -/
def Obligations.StartsLoadTheStoreAndRaiseTheirFlags : Prop :=
  (∀ (s : State) (c : Instr) (cause : StartCause),
    let d := s.device
    (c = .mainPowerOn ∧ cause = .mainPower ∧ d.mainPower = false ∧ d.rstnLow = false)
      ∨ (c = .externalReset ∧ cause = .externalReset ∧ d.mainPower = true ∧ d.rstnLow = true) →
    ∃ e, exec c s = .next { s with link := {}, device := e } ∧ e.running = true
      ∧ e.work = (if d.store.checksumGood then d.store.image else {})
      ∧ e.store = { d.store with saving := none, lastSave := .none }
      ∧ e.start = ⟨cause, !d.markerValid, !d.store.checksumGood⟩ ∧ e.terminals = ⟨[]⟩
      ∧ e.markerValid = true ∧ e.comparator = false ∧ e.guardLatch = false
      ∧ e.uptime = (if d.markerValid then d.uptime else 0) ∧ e.wall = (if d.markerValid then d.wall else 0)
      ∧ e.wallValid = (d.markerValid && d.wallValid) ∧ e.period = (if d.markerValid then d.period else 0)
      ∧ (e.stamp .started 0).isSome = e.enabled .started
      ∧ (e.stamp .retainedLost 0).isSome = (!d.markerValid && e.enabled .retainedLost)
      ∧ (e.stamp .batteryLow 0).isSome = (d.comparator && e.enabled .batteryLow)
      ∧ (e.stamp .storeInvalid 0).isSome = (!d.store.checksumGood && e.enabled .storeInvalid)
      ∧ (e.stamp .clockInvalid 0).isSome = (!e.wallValid && e.enabled .clockInvalid)
      ∧ (d.markerValid = false →
        e.grants = [] ∧ e.waiting = [] ∧ e.removals = [] ∧ e.removalsDropped = 0 ∧ e.exhaustions = []
        ∧ e.exhaustionsDropped = 0 ∧ e.pendingList = [] ∧ e.calloutSerial = 0 ∧ e.nextSequence = 0 ∧ e.nextRollover = none
        ∧ (∀ n, e.ticket n = none ∧ e.queue n = [] ∧ e.callout n = none ∧ e.accountTotals n = {} ∧ e.tenantTotals n = {})
        ∧ (∀ p, e.printer p = (if p < 128 ∧ e.configured p = true then
          { derived := .online, silenceDeadline := some (after 0 (e.settings p).reportInterval) } else {}))
        ∧ (∀ k, (e.kind k).onHand = 0 ∧ (e.kind k).hold = false)
        ∧ (∀ n o, e.order n = some o → o.phase = .proposed ∧ o.received = 0)
        ∧ ∀ k, k < 16 → (e.kindSettings k).configured = true → 0 < (e.kindSettings k).reorderPoint →
          let r := e.kindSettings k
          let packs := (r.orderUpTo + r.packSize - 1) / r.packSize
          ∃ n o, e.order n = some o ∧ o.kind = k
            ∧ o.quantity = (if packs * r.packSize ≤ 255 then packs * r.packSize else 255 / r.packSize * r.packSize)))
  ∧ (∀ (s : State) (tag : Byte), s.device.running = true → s.device.saving = false →
    let d := s.device
    ∃ e, exec .softReset (s.offer 0x09 tag []) = .next { s with link := { reply := some ⟨0x89, tag, [0x00]⟩ }, device := e }
      ∧ e.ground = { d.ground with
          work := if d.store.checksumGood then d.store.image else {}
          store := { d.store with saving := none, lastSave := .none }
          start := ⟨.softReset, false, !d.store.checksumGood⟩ }
      ∧ e.terminals = ⟨[]⟩ ∧ (e.stamp .started 0).isSome = e.enabled .started
      ∧ (e.stamp .storeInvalid 0).isSome = (!d.store.checksumGood && e.enabled .storeInvalid))
  ∧ (∀ s : State, s.device.mainPower = false → s.device.rstnLow = false → s.device.markerValid = false →
    s.device.comparator = false → s.device.store = State.reset.device.store →
      exec .mainPowerOn s = .next { State.reset with pending := s.pending })

/-- What a start that finds the retained domain good does to tickets, queues and accounts. A ticket of an owner inactive in the loaded settings leaves. One
QUEUED at a slot that the load makes UNCONFIGURED is HELD again; one PRINTING there is HELD with the reprint mark, or settled where its accumulators are not
all 0. A HELD ticket that targets such a slot, and one whose expiry deadline has passed, leaves; one in flight at another printer is retargeted to that printer's group. A
PRINTING ticket outside SERVICE stays with its completion deadline restarted; a QUEUED one stays in flight at a printer that takes it, and is HELD again where
a new state does not. A queue keeps the tickets still in flight, in order. Held counts and reserved totals fall with the tickets, used totals stay but for a
settlement, a lockout that has passed ends, and a tenant's reserved total is the sum of its accounts', here where no printer changes its state (R19, R20, R79, R80,
R90, R98, R102, R112, R121, R122). The reprint mark of a QUEUED ticket is log entry 50. -/
def Obligations.StartsReconcileTicketsAndAccounts : Prop :=
  ∀ (s s' : State) (c : Instr), s.restartsBy s' c → s.device.canonical → s.device.queuesInStep →
    let d := s.device
    ∃ t, exec c s' = .next t ∧
      let e := t.device
      let active := fun a : Nat => (e.accountSettings a).active = true
        ∧ (e.tenantSettings (e.accountSettings a).tenant).active = true
      let aims := fun k : Ticket => ∃ p, k.target = .printer p ∧ d.losesSlot e p
      let late := fun k : Ticket => passed d.uptime k.expiry = true
      e.uptime = d.uptime ∧ e.nextSequence = d.nextSequence
      ∧ (∀ n k, d.ticket n = some k → ¬ active k.owner → e.ticket n = none)
      ∧ (∀ n k, d.ticket n = some k → active k.owner →
        (k.phase = .held → (aims k ∨ late k → e.ticket n = none) ∧ (¬ aims k → ¬ late k → e.ticket n = some k))
        ∧ (∀ a, k.phase = .queued a → d.losesSlot e a.printer →
          (aims k ∨ late k → e.ticket n = none)
          ∧ (¬ aims k → ¬ late k → e.ticket n = some { k with phase := .held }))
        ∧ (∀ a taken deadline, k.phase = .printing a taken deadline → d.losesSlot e a.printer →
          let acc := (d.printer a.printer).printing
          (acc = {} → (aims k ∨ late k → e.ticket n = none)
            ∧ (¬ aims k → ¬ late k → e.ticket n = some { k with phase := .held, reprint := true }))
          ∧ (acc ≠ {} → e.ticket n = none
            ∧ ((∀ m u, d.ticket m = some u → u.owner = k.owner → u.phase.isPrinting = true → m = n) →
              (e.accountTotals k.owner).used = min 4294967295 ((d.accountTotals k.owner).used
                + charge a.snapRates k.size (min 9999 acc.mono) (min 9999 acc.colour) (min 9999 acc.sheets)))))
        ∧ (∀ a, k.phase.admitted = some a → a.printer < 128 → ¬ d.losesSlot e a.printer →
          ∃ target, (¬ aims k → target = k.target) ∧ (aims k → target = .group (e.settings a.printer).group)
            ∧ (∀ taken deadline, k.phase = .printing a taken deadline → (d.printer a.printer).inService = false →
              e.ticket n = some { k with
                target := target
                phase := .printing a taken (after d.uptime (e.work.completionMinutes * 60)) })
            ∧ (k.phase = .queued a →
              let st := (e.printer a.printer).derived
              let takes := st = .online ∨ st = .degradedMono ∧ k.colour = 0
              (takes → ∃ phase, phase.admitted = some a ∧ e.ticket n = some { k with target := target, phase := phase })
              ∧ (¬ takes → st ≠ (d.printer a.printer).derived → (late k → e.ticket n = none)
                ∧ (¬ late k → e.ticket n = some { k with target := target, phase := .held })))))
      ∧ (∀ p, e.queue p = (d.queue p).filter fun n => (e.ticket n).any fun k => k.phase.admitted.isSome)
      ∧ (∀ a,
        let mine := d.ticketList.filter fun x => x.2.owner = a
        let ended := mine.filter fun x => !(e.ticket x.1).any fun k => k.phase.admitted.isSome
        let over_ := (d.accountTotals a).lockedUntil.any (passed d.uptime)
        (e.accountTotals a).held = (d.accountTotals a).held - (mine.filter fun x => (e.ticket x.1).isNone).length
        ∧ (e.accountTotals a).reserved = (d.accountTotals a).reserved
          - (ended.map fun x => (x.2.phase.admitted.map Admitted.reservation).getD 0).sum
        ∧ (e.accountTotals a).lockedUntil = (if over_ then none else (d.accountTotals a).lockedUntil)
        ∧ (e.accountTotals a).failures = (if over_ then 0 else (d.accountTotals a).failures)
        ∧ ((¬ active a ∨ ∀ n k, d.ticket n = some k → k.owner = a → k.phase.isPrinting = true → e.ticket n ≠ none) →
          (e.accountTotals a).used = (d.accountTotals a).used))
      ∧ ((∀ p, (e.printer p).derived = (d.printer p).derived) → ∀ k, (e.tenantTotals k).reserved
        = ((e.accounts.entries.filter fun x => (e.accountSettings x.1).tenant = k).map fun x => x.2.reserved).sum)

/-- What a start that finds the retained domain good does to printers, callouts, stock and orders. A slot that the load makes UNCONFIGURED takes its initial
values; one that becomes configured starts fresh; a kept one keeps its counters and marks. A live one restarts silence and stall timing and its holdoffs; SILENCE,
STALL and COUNTER_REGRESS are inactive, SERVICE_DUE, SUPPLY_EMPTY and CONSUMPTION as their conditions are, the mapped classes as they were. A channel that joins or leaves
the set takes its initial record, another keeps it with D recomputed; low and out are judged, and the state is derived. A callout record of a lost slot is freed and
its pending entry leaves; another is kept, and escalates once, its deadline from now, where its deadline has passed, here where no class latches at the start. A kind
keeps its count, and its hold where its record is unchanged; an unconfigured one loses count and orders; an order of a configured kind is kept, and marked where it
is overdue. A rollover that fell due is taken once (R19, R20, R40, R41, R59, R60, R143, R156, R171). That consumption-active fields are
kept when a floor changes is log entry 59, and how the clock reaches the instant log entry 56. -/
def Obligations.StartsKeepPrintersCalloutsAndStock : Prop :=
  ∀ (s s' : State) (c : Instr), s.restartsBy s' c → s.device.canonical →
    let d := s.device
    let due := d.wallValid = true ∧ ∃ x, d.nextRollover = some x ∧ passed d.wall x = true
    ∃ t, exec c s' = .next t ∧
      let e := t.device
      (∀ p, d.losesSlot e p → e.printer p = {})
      ∧ (∀ p, p < 128 → d.configured p = false → e.configured p = true → ¬ due → e.printer p =
        { derived := .online, silenceDeadline := some (after d.uptime (e.settings p).reportInterval) })
      ∧ (∀ p, p < 128 → d.configured p = true → e.configured p = true →
        let x := d.printer p
        let live := x.retired = false
        (e.printer p).derived = e.derive p
        ∧ (¬ live → (e.printer p).counters = x.counters)
        ∧ (live → (e.printer p).counters = { x.counters with
            missed := 0, silenceDeadline := some (after d.uptime (e.settings p).reportInterval)
            dailyAll := if d.wallValid && d.nextRollover.any (passed d.wall) then 0 else x.dailyAll
            dailyColour := if d.wallValid && d.nextRollover.any (passed d.wall) then 0 else x.dailyColour })
        ∧ (∀ n k a taken deadline, live → x.inService = false → d.queuesInStep → n ∈ d.queue p → d.ticket n = some k →
          k.phase = .printing a taken deadline → e.ticket n ≠ none →
          (e.printer p).printing = x.printing ∧ (e.printer p).lastAdvance = x.lastAdvance.map fun _ => d.uptime)
        ∧ (∀ cls, cls ∉ [FaultClass.serviceDue, .supplyEmpty, .consumption] →
          e.fault p cls = { d.fault p cls with
            active := (d.fault p cls).active && !(live && [FaultClass.silence, .stall, .counterRegress].contains cls)
            holdoff := (d.fault p cls).holdoff.map fun _ => after d.uptime (e.policy cls).retryTime })
        ∧ (live → ((e.fault p .serviceDue).active = true ↔
            (e.settings p).serviceInterval ≠ 0 ∧ (e.settings p).serviceInterval * 1000 ≤ x.sinceService)
          ∧ ((e.fault p .supplyEmpty).active = true ↔ ∃ ch, (ch = .k ∨ ch = .drum ∨ ch = .waste)
            ∧ (e.settings p).channels.get ch = true ∧ (e.forecast p ch).p = some 0)
          ∧ ((e.fault p .consumption).active = true ↔ ∃ ch, (e.forecast p ch).consuming = true)
          ∧ ((e.printer p).low = true ↔ ∃ ch days, (e.settings p).channels.get ch = true
            ∧ (e.forecast p ch).days = some days ∧ days ≤ e.work.forecast.lowWarning)
          ∧ ((e.printer p).out = true ↔ ∃ ch, (e.settings p).channels.get ch = true ∧ (e.forecast p ch).p = some 0))
        ∧ ∀ ch,
          let same := (e.settings p).channels.get ch = (d.settings p).channels.get ch
          (¬ same → e.forecast p ch = {} ∧ (e.printer p).marks.get ch = false)
          ∧ (same → (e.printer p).marks.get ch = x.marks.get ch
            ∧ ((e.settings p).channels.get ch = false → e.forecast p ch = d.forecast p ch)
            ∧ ((e.settings p).channels.get ch = true → e.forecast p ch = { d.forecast p ch with
              days := daysToEmpty (d.forecast p ch).p (d.forecast p ch).rate
                (if ch = .c ∨ ch = .m ∨ ch = .y then (e.printer p).throughputColour
                  else (e.printer p).throughputAll) })))
      ∧ (∀ x ∈ e.pendingList, ¬ d.losesSlot e x.printer)
      ∧ (∀ n k, d.callout n = some k → n < 32 →
        (d.losesSlot e k.printer → ∀ k', e.callout n = some k' → k'.printer ≠ k.printer)
        ∧ (¬ d.losesSlot e k.printer →
          (∀ cls, (e.fault k.printer cls).latched = (d.fault k.printer cls).latched) →
          (∀ tech, k.phase = .attended tech → e.callout n = some k)
          ∧ (∀ x, k.deadline = some x →
            (passed d.uptime x = false → e.callout n = some k)
            ∧ (passed d.uptime x = true →
              let deadline := after d.uptime (e.responseTime k.classes)
              (∀ y, k.phase = .opened y →
                e.callout n = some { k with phase := .opened deadline, level := min 3 (k.level + 1) })
              ∧ (∀ y, k.phase = .dispatched y →
                e.callout n = some { k with phase := .dispatched deadline, level := min 3 (k.level + 1) })))))
      ∧ (∀ k, k < 16 →
        ((e.kindSettings k).configured = false → e.kind k = {} ∧ ∀ n o, e.order n = some o → o.kind ≠ k)
        ∧ ((e.kindSettings k).configured = true → (e.kind k).onHand = (d.kind k).onHand
          ∧ (e.kind k).hold = ((d.kind k).hold && decide (d.kindSettings k = e.kindSettings k)
            && !(d.wallValid && d.nextRollover.any (passed d.wall)))
          ∧ ∀ n o, n < 64 → d.order n = some o → o.kind = k → e.order n = some { o with
            phase := match o.phase with
              | .proposed => .proposed
              | .placed p => .placed { p with marked := p.marked || passed d.uptime p.overdue }
              | .partially p => .partially { p with marked := p.marked || passed d.uptime p.overdue } }))

/-- The replies of the requests that only read, field by field in the order their rules give, for IDENTIFY, READ TIME, READ ATTENTION (ENABLES), READ
PRINTER, READ FAULTS (PRINTER), READ CALLOUTS (PENDING), READ ACCOUNT, READ TENANT, READ TICKETS (GRANTS), READ TERMINALS (LINE), READ SUPPLIES (SETTINGS),
READ STOCK (ALL) and READ ORDERS; each is answered OK and changes nothing (R18, R39, R58, R78, R120, R141, R155, R170, R177, R183, R187). The bytes of
two-valued, selector and seconds fields are log entries 5, 8 and 9; the seconds left of a deadline that has passed log entry 10; the channel set, the
class byte of a pending entry and the absent name log entries 6, 7 and 30; the order of the classes in READ FAULTS log entry 38; the order of
the enables log entry 58; the end of a recurrence window where uptime wraps log entry 60. -/
def Obligations.ReadsReplyWithTheirRecords : Prop :=
  ∀ (s : State) (tag : Byte), s.device.running = true →
    let d := s.device
    let left := fun (width : Nat) (t : Option Time) => optBytes width (t.map (secondsLeft d.uptime))
    let reads := fun (c : Instr) (kind : Nat) (body reply : List Byte) =>
      exec c (s.offer kind tag body) = .next (s.reply (kind + 0x80) tag (0x00 :: reply) d)
    reads .identify 0x01 [] ([0x5A, 0x4E, 0x80, 0x04, 0x03, 0xFC, 0x03, 0x04] ++ toBytes 2 s.link.checkCount
      ++ toBytes 2 s.link.lengthCount ++ toBytes 2 s.link.gapCount ++ toBytes 2 s.link.framingCount
      ++ toBytes 2 s.link.overrunCount)
    ∧ reads .readTime 0x0B [] (toBytes 4 d.uptime.toNat ++ toBytes 4 d.wall.toNat ++ [boolByte d.wallValid]
      ++ toBytes 1 d.start.cause.number ++ [boolByte d.start.retainedLoss, boolByte d.start.imageInvalid]
      ++ [if d.saving then 1 else 0] ++ toBytes 1 d.store.lastSave.number)
    ∧ reads .readAttention 0x02 [2] (boolByte d.work.enables.global
      :: ((List.range 7).map (fun g => boolByte (d.work.enables.groups.get true g))
        ++ (List.range 26).map fun f => boolByte (d.work.enables.flags.get true f)))
    ∧ (∀ p, p < 128 →
      let x := d.printer p
      let r := d.settings p
      let settings := [boolByte r.enabled] ++ toBytes 1 r.rateClass ++ toBytes 1 r.group ++ optTextBytes r.name
        ++ channelSetBytes r.channels ++ Channel.all.flatMap (fun ch => optBytes 1 (r.kinds.get ch))
        ++ toBytes 2 r.reportInterval ++ toBytes 1 r.missedLimit ++ toBytes 2 r.serviceInterval
      (r.enabled = false → reads .readPrinter 0x13 (toBytes 1 p) (0 :: settings))
      ∧ (r.enabled = true → reads .readPrinter 0x13 (toBytes 1 p) (settings ++ toBytes 1 x.derived.number
        ++ [boolByte x.retired, boolByte x.inService] ++ optBytes 4 (x.lastTotals.map Totals.mono)
        ++ optBytes 4 (x.lastTotals.map Totals.colour) ++ optBytes 4 (x.lastTotals.map Totals.sheets)
        ++ toBytes 1 x.missed ++ left 2 x.silenceDeadline ++ toBytes 4 x.printing.mono ++ toBytes 4 x.printing.colour
        ++ toBytes 4 x.printing.sheets ++ optBytes 4 (x.lastAdvance.map (secondsSince d.uptime))
        ++ toBytes 4 x.dailyAll ++ toBytes 4 x.dailyColour ++ toBytes 4 x.sinceService
        ++ toBytes 1 (d.queue p).length ++ optBytes 4 ((d.printingTicket p).map fun e => e.2.jobId)))
      ∧ (r.enabled = true → reads .readFaults 0x1B [0, BitVec.ofNat 8 p] (FaultClass.all.flatMap (fun cls =>
          let f := d.fault p cls
          let pol := d.policy cls
          [boolByte f.active, boolByte f.latched] ++ left 2 f.holdoff ++ toBytes 1 f.count
            ++ left 4 (f.window.bind fun w =>
              if passed d.uptime (after w (pol.window * 60)) then none else some (after w (pol.window * 60)))
            ++ optBytes 2 f.code ++ toBytes 1 pol.mode.number)
        ++ Channel.all.map (fun ch => boolByte (x.marks.get ch)) ++ toBytes 1 x.derived.number)))
    ∧ (∀ start, start < 128 → reads .readCallouts 0x20 [1, BitVec.ofNat 8 start] (toBytes 1 d.pendingList.length
      ++ BitVec.ofNat 8 ((d.pendingList.drop start).take 64).length
        :: ((d.pendingList.drop start).take 64).flatMap fun e => toBytes 1 e.printer ++ toBytes 1 e.cls.number
          ++ optBytes 2 e.code ++ toBytes 4 (secondsSince d.uptime e.joined)))
    ∧ (∀ n, n < 4096 →
      let r := d.accountSettings n
      let x := d.accountTotals n
      let k := d.credentials n
      reads .readAccount 0x30 (toBytes 2 n) ([boolByte r.active] ++ toBytes 1 r.tenant ++ toBytes 1 r.role.number
        ++ toBytes 4 r.allowance ++ [boolByte r.colour, boolByte r.pinRequired] ++ toBytes 1 r.heldLimit
        ++ toBytes 4 x.used ++ toBytes 4 x.reserved ++ toBytes 1 x.held ++ toBytes 1 x.failures ++ left 2 x.lockedUntil
        ++ [boolByte (d.usable n)] ++ budgetBytes (d.accountRemaining n) ++ toBytes 1 (d.inFlightCount (· = n))
        ++ [boolByte k.token1.isSome, boolByte k.token2.isSome, boolByte k.digest.isSome] ++ toBytes 2 d.period.toNat))
    ∧ (∀ n, n < 64 →
      let r := d.tenantSettings n
      let mine := (List.range 4096).filter fun a => (d.accountSettings a).tenant = n
      reads .readTenant 0x31 (toBytes 1 n) ([boolByte r.active] ++ toBytes 4 r.allowance ++ [boolByte r.colour]
        ++ toBytes 1 r.holdHours ++ toBytes 4 (d.tenantTotals n).used ++ toBytes 4 (d.tenantTotals n).reserved
        ++ budgetBytes (d.tenantRemaining n) ++ toBytes 2 mine.length
        ++ toBytes 2 (mine.countP fun a => (d.accountSettings a).active) ++ toBytes 2 d.period.toNat))
    ∧ reads .readTickets 0x44 [3] (BitVec.ofNat 8 d.grants.length
      :: d.grants.flatMap fun g => toBytes 4 g.jobId ++ toBytes 2 g.ticket ++ toBytes 1 g.printer)
    ∧ (∀ line, line < 4 → reads .readTerminals 0x4A [0, BitVec.ofNat 8 line]
      (([if (d.lineSettings line).quiet then 1 else 0] : List Byte) ++ toBytes 1 (d.lineSettings line).idleTimeout
        ++ [boolByte (match (d.line line).phase with | .pausing _ => true | _ => false)] ++ toBytes 4 (d.line line).cycles
        ++ (List.range 32).flatMap fun k =>
          [boolByte (d.terminalSettings (line * 32 + k)).configured]
            ++ toBytes 1 (d.terminalSettings (line * 32 + k)).printer
            ++ toBytes 1 (d.terminal (line * 32 + k)).presence.number
            ++ toBytes 1 (d.terminal (line * 32 + k)).session.number))
    ∧ (let r := d.work.forecast
      reads .readSupplies 0x51 [2] (toBytes 1 r.shift ++ toBytes 1 r.dayShift ++ toBytes 1 r.swap ++ toBytes 1 r.lowWarning
        ++ toBytes 2 r.floorK ++ toBytes 2 r.floorColour ++ toBytes 2 r.floorDrum ++ toBytes 2 r.floorWaste
        ++ toBytes 1 r.rolloverHour ++ optBytes 4 (d.nextRollover.map (·.toNat))))
    ∧ reads .readStock 0x5E [1] ((List.range 16).flatMap fun k =>
      [boolByte (d.kindSettings k).configured] ++ toBytes 2 (d.kind k).onHand ++ toBytes 2 (d.onOrder k)
        ++ toBytes 2 (d.demand k) ++ toBytesInt 2 ((d.kind k).onHand + d.onOrder k - d.demand k)
        ++ [boolByte (d.kind k).hold, boolByte (d.kind k).blocked])
    ∧ reads .readOrders 0x5F [] (toBytes 2 d.orderSerial.toNat ++ BitVec.ofNat 8 d.orderList.length
      :: d.orderList.flatMap fun e =>
        toBytes 1 e.1 ++ toBytes 2 e.2.serial.toNat ++ toBytes 1 e.2.kind ++ toBytes 1 e.2.quantity
          ++ toBytes 1 e.2.received ++ toBytes 1 e.2.phase.number
          ++ toBytes 4 (secondsSince d.uptime e.2.proposedAt) ++ optBytes 4 (e.2.proposedWall.map (·.toNat))
          ++ optBytes 4 (e.2.placedInfo.map fun p => secondsSince d.uptime p.at_)
          ++ optBytes 4 ((e.2.placedInfo.bind fun p => p.wall).map (·.toNat)) ++ left 4 (e.2.placedInfo.map fun p => p.overdue)
          ++ [boolByte (e.2.placedInfo.any fun p => p.marked)] ++ toBytes 4 (d.kindSettings e.2.kind).supplier)

/-- The replies of the other forms of the requests that read, field by field in the order their rules give: READ ATTENTION (SUMMARY, GROUP), READ FAULTS
(POLICIES, MAP), READ CALLOUTS (RECORDS, PRINTER), READ TICKETS (JOB, ACCOUNT, PRINTER, STORE), READ TERMINALS (TERMINAL), READ SUPPLIES (PRINTER, LOW) and
READ STOCK (KIND); each is answered OK and changes nothing (R39, R58, R120, R141, R155, R170, R183). The bytes of two-valued, selector and seconds fields are
log entries 5, 8 and 9; the seconds left of a deadline that has passed log entry 10; sets and class bytes log entries 6 and 7; release outcomes log entry 27;
absent records and titles log entry 30; the level of ATTN, the counts and the follow-up log entry 35; positions in lists log entry 42; the order of
channels and of flags in lists log entries 57 and 58. -/
def Obligations.FurtherReadsReplyWithTheirRecords : Prop :=
  ∀ (s : State) (tag : Byte), s.device.running = true →
    let d := s.device
    let left := fun (width : Nat) (t : Option Time) => optBytes width (t.map (secondsLeft d.uptime))
    let counted := fun items : List (List Byte) => BitVec.ofNat 8 items.length :: items.flatten
    let reads := fun (c : Instr) (kind : Nat) (body reply : List Byte) =>
      exec c (s.offer kind tag body) = .next (s.reply (kind + 0x80) tag (0x00 :: reply) d)
    let set := fun (g : FlagGroup) (i : Nat) => Flag.all.filter fun f => f.group = g && (d.stamp f i).isSome
    let at_ := fun (g : FlagGroup) (start : Nat) => (List.range 128).filter fun i => start ≤ i && set g i ≠ []
    let record := fun (n : Nat) (c : Callout) => toBytes 1 n ++ toBytes 2 c.serial.toNat ++ toBytes 1 c.printer
      ++ counted (c.classes.members.map fun cls => toBytes 1 cls.number) ++ optBytes 2 c.firstCode
      ++ toBytes 4 (secondsSince d.uptime c.openedAt) ++ optBytes 4 (c.openedWall.map (·.toNat))
      ++ toBytes 1 c.phase.number ++ toBytes 1 c.level ++ left 4 c.deadline ++ toBytes 1 c.revisits
      ++ optBytes 2 (match c.phase with | .attended tech => some tech | _ => none)
    let target := fun t : Ticket => match t.target with
      | .printer p => toBytes 1 0 ++ toBytes 1 p
      | .group g => toBytes 1 1 ++ toBytes 1 g
    let admitted := fun t : Ticket => match t.phase with
      | .held => none
      | .queued a | .printing a _ _ => some a
    let flag := fun b : Option Bool => match b with
      | some x => [1, boolByte x]
      | none => [0, 0]
    let taken := fun t : Ticket => match t.phase with
      | .printing _ x _ => some x
      | _ => none
    let refusal := fun t : Ticket => optBytes 1 (t.lastRefusal.map ReleaseOutcome.number)
    reads .readAttention 0x02 [0] (toBytes 4 d.attention.counter.toNat ++ [if d.attnLow then 0 else 1]
      ++ [boolByte d.work.enables.global]
      ++ [FlagGroup.printer, .terminal, .callout, .job, .order, .account, .system].flatMap (fun g =>
        boolByte (d.groupEnabled g) :: toBytes (if g = .printer ∨ g = .terminal then 2 else 1)
          (d.setFlags.countP fun x => x.1.group = g))
      ++ (Flag.all.filter fun f => f.group ≠ .printer && f.group ≠ .terminal).flatMap fun f =>
        [boolByte (d.stamp f 0).isSome] ++ optBytes 4 ((d.stamp f 0).map (·.toNat)) ++ [boolByte (d.causeHolds f 0)])
    ∧ (∀ g start, g = .printer ∨ g = .terminal → start < 128 →
      reads .readAttention 0x02 [1, BitVec.ofNat 8 g.number, BitVec.ofNat 8 start]
        (counted (((at_ g start).take 32).map fun i => toBytes 1 i ++ counted ((set g i).map fun f =>
          toBytes 1 f.number ++ toBytes 4 ((d.stamp f i).getD 0).toNat ++ [boolByte (d.causeHolds f i)]))
        ++ optBytes 1 (at_ g start)[32]?))
    ∧ reads .readFaults 0x1B [1] (FaultClass.all.flatMap fun cls =>
      toBytes 1 (d.policy cls).mode.number ++ [boolByte (d.policy cls).callout] ++ toBytes 2 (d.policy cls).retryTime
        ++ toBytes 1 (d.policy cls).limit ++ toBytes 2 (d.policy cls).window ++ toBytes 2 (d.policy cls).response)
    ∧ reads .readFaults 0x1B [2] ((List.range 48).flatMap fun n => match d.mapEntry n with
      | none => toBytes 8 0
      | some x => 1 :: (toBytes 2 x.codeLow ++ toBytes 2 x.codeHigh ++ toBytes 1 x.cls.number
        ++ optBytes 1 (x.channel.map Channel.number)))
    ∧ reads .readCallouts 0x20 [0] (toBytes 2 d.calloutSerial.toNat ++ counted (d.calloutList.map fun x => record x.1 x.2))
    ∧ (∀ p, p < 128 → d.callouts.wf none = true →
      let rest := optBytes 1 (d.pendingList.findIdx? fun x => x.printer = p) ++ [boolByte (d.printer p).inService]
      (∀ n c, d.callout n = some c → c.printer = p → (∀ m k, d.callout m = some k → k.printer = p → m = n) →
        reads .readCallouts 0x20 [2, BitVec.ofNat 8 p] (1 :: record n c ++ rest))
      ∧ ((∀ n c, d.callout n = some c → c.printer ≠ p) →
        reads .readCallouts 0x20 [2, BitVec.ofNat 8 p] (0 :: toBytes 28 0 ++ rest)))
    ∧ (∀ n t, d.holds n t → 1 ≤ t.jobId → t.jobId < 2 ^ 32 →
      reads .readTickets 0x44 (0 :: toBytes 4 t.jobId) (toBytes 4 t.jobId ++ toBytes 2 n ++ toBytes 2 t.owner ++ target t
        ++ toBytes 2 t.mono ++ toBytes 2 t.colour ++ toBytes 2 t.sheets ++ toBytes 1 t.size.number
        ++ (match t.title with | some x => [1, BitVec.ofNat 8 x.length] ++ x | none => [0, 0])
        ++ toBytes 4 t.sequence.toNat ++ toBytes 4 (secondsLeft d.uptime t.expiry) ++ toBytes 1 t.phase.number
        ++ optBytes 1 ((admitted t).map (·.printer)) ++ optBytes 2 ((admitted t).map (·.reservation))
        ++ (match admitted t with
          | some a => 1 :: (toBytes 1 a.snapClass ++ toBytes 2 a.snapRates.rm ++ toBytes 2 a.snapRates.rc
            ++ toBytes 2 a.snapRates.rs ++ toBytes 2 a.snapRates.dc ++ toBytes 1 a.snapRates.lf ++ toBytes 1 a.snapRates.mc)
          | none => toBytes 12 0)
        ++ flag (taken t) ++ left 2 (match t.phase with | .printing _ _ x => some x | _ => none)
        ++ [boolByte t.reprint] ++ refusal t))
    ∧ (∀ a start, a < 4096 → start ≤ 63 →
      reads .readTickets 0x44 (1 :: (toBytes 2 a ++ toBytes 1 start)) (toBytes 1 (d.accountTotals a).held
        ++ counted ((((d.ticketsOf a).drop start).take 16).map fun x => toBytes 4 x.2.jobId ++ toBytes 2 x.1
          ++ toBytes 1 x.2.phase.number ++ target x.2 ++ optBytes 1 ((admitted x.2).map (·.printer)) ++ refusal x.2))
      ∧ (d.ticketsOf a).Pairwise (fun x y => x.2.sequence.toNat ≤ y.2.sequence.toNat)
      ∧ ∀ x, x ∈ d.ticketsOf a ↔ x ∈ d.ticketList ∧ x.2.owner = a)
    ∧ (∀ p, p < 128 → (∀ n ∈ d.queue p, d.ticket n ≠ none) →
      reads .readTickets 0x44 [2, BitVec.ofNat 8 p] (counted ((d.queue p).map fun n => match d.ticket n with
          | some t => toBytes 4 t.jobId ++ toBytes 2 n ++ toBytes 1 t.phase.number ++ flag (taken t)
          | none => [])
        ++ optBytes 1 (d.waiting.findIdx? fun q => q = p)))
    ∧ (let inPhase := fun k : Nat => d.ticketList.countP fun x => x.2.phase.number = k
      reads .readTickets 0x44 [4] (toBytes 2 d.ticketList.length ++ toBytes 2 (inPhase 0) ++ toBytes 2 (inPhase 1)
        ++ toBytes 1 (inPhase 2) ++ toBytes 4 d.nextSequence.toNat ++ toBytes 1 d.work.completionMinutes
        ++ toBytes 2 d.work.stallTime ++ counted (d.waiting.map (toBytes 1)) ++ toBytes 1 d.removals.length
        ++ toBytes 1 d.removalsDropped))
    ∧ (∀ line a, line < 4 → 1 ≤ a → a ≤ 32 →
      let t := d.terminal (line * 32 + a - 1)
      let r := d.terminalSettings (line * 32 + a - 1)
      reads .readTerminals 0x4A [1, BitVec.ofNat 8 line, BitVec.ofNat 8 a] ([boolByte r.configured] ++ toBytes 1 r.printer
        ++ optBytes 4 r.expected ++ toBytes 1 t.presence.number
        ++ optBytes 1 (if t.presence = .joining then some t.joinPolls else none)
        ++ optBytes 1 (if t.presence = .present then some (t.window.count true) else none) ++ left 1 t.lostDeadline
        ++ optBytes 4 t.joinedSerial ++ optBytes 4 t.refusedSerial ++ ([if t.ack then 1 else 0] : List Byte)
        ++ optBytes 1 (t.pending.map fun x => x.screen.number)
        ++ (match t.follow with
          | some (x, .welcome) => 1 :: toBytes 1 (secondsLeft d.uptime x) ++ [0]
          | some (x, .jobList _) => 1 :: toBytes 1 (secondsLeft d.uptime x) ++ [1]
          | none => [0, 0, 0])
        ++ toBytes 1 t.session.number ++ optBytes 2 t.session.account
        ++ optBytes 1 (match t.session with | .listing _ _ page _ => some page | _ => none) ++ left 1 t.session.idle))
    ∧ (∀ p, p < 128 → d.configured p = true →
      let x := d.printer p
      reads .readSupplies 0x51 [0, BitVec.ofNat 8 p] (Channel.all.flatMap (fun ch =>
          let f := d.forecast p ch
          [boolByte ((d.settings p).channels.get ch)] ++ optBytes 1 ((d.settings p).kinds.get ch)
            ++ [boolByte (x.marks.get ch)] ++ optBytes 1 f.p ++ optBytes 1 f.pk ++ toBytes 4 f.anchor ++ optBytes 2 f.rate
            ++ optBytes 2 f.lastSample ++ optBytes 2 f.days ++ [boolByte f.consuming])
        ++ optBytes 2 x.throughputAll ++ optBytes 2 x.throughputColour ++ toBytes 4 x.dailyAll ++ toBytes 4 x.dailyColour
        ++ [boolByte (d.isLow p), boolByte (d.isOut p)]))
    ∧ (d.work.printers.wf {} = true → (∀ p, d.configured p = true → p < 128) →
      let near := fun p => Channel.all.filter fun ch => (d.settings p).channels.get ch
        && (d.forecast p ch).days.any (· ≤ d.work.forecast.lowWarning)
      reads .readSupplies 0x51 [1] (counted (((List.range 128).filter fun p => d.live p && near p ≠ []).map fun p =>
        toBytes 1 p ++ counted ((near p).map fun ch =>
          toBytes 1 ch.number ++ optBytes 2 (d.forecast p ch).days ++ optBytes 1 (d.forecast p ch).p))))
    ∧ (∀ k, k < 16 →
      let r := d.kindSettings k
      reads .readStock 0x5E [0, BitVec.ofNat 8 k] ([boolByte r.configured] ++ toBytes 4 r.supplier
        ++ toBytes 1 r.reorderPoint ++ toBytes 1 r.orderUpTo ++ toBytes 1 r.packSize ++ toBytes 1 r.leadTime
        ++ toBytes 1 r.grace ++ toBytes 2 (d.kind k).onHand ++ [boolByte (d.kind k).hold, boolByte (d.kind k).blocked]
        ++ toBytes 2 (d.onOrder k) ++ toBytes 2 (d.demand k)
        ++ toBytesInt 2 ((d.kind k).onHand + d.onOrder k - d.demand k)
        ++ counted ((d.demandChannels k).map fun x => toBytes 1 x.1 ++ toBytes 1 x.2.1.number ++ optBytes 2 (some x.2.2))))
end

