-- ==== Sys2Proof/Laws/Table.lean ====
section
/-! SUPPORT. The laws of tables: reading after writing, and the canonical form. -/

namespace Sys2Proof.Machine

variable {α : Type}

theorem Table.find_erase_same (d : α) (l : List (Nat × α)) (n : Nat) :
    Table.find d (Table.erase n l) n = d := by
  induction l with
  | nil => rfl
  | cons e rest ih =>
    obtain ⟨k, w⟩ := e
    by_cases h : k = n <;> simp [Table.erase, Table.find, h, ih]

theorem Table.find_erase_ne (d : α) (l : List (Nat × α)) {n m : Nat} (h : m ≠ n) :
    Table.find d (Table.erase n l) m = Table.find d l m := by
  induction l with
  | nil => rfl
  | cons e rest ih =>
    obtain ⟨k, w⟩ := e
    by_cases hk : k = n
    · subst hk
      simp [Table.erase, Table.find, ih, Ne.symm h]
    · rw [Table.erase, if_neg hk, Table.find, Table.find, ih]

theorem Table.find_insert_same (d v : α) (l : List (Nat × α)) (n : Nat) :
    Table.find d (Table.insert n v (Table.erase n l)) n = v := by
  induction l with
  | nil => simp [Table.erase, Table.insert, Table.find]
  | cons e rest ih =>
    obtain ⟨k, w⟩ := e
    by_cases hk : k = n
    · simpa [Table.erase, hk] using ih
    · by_cases hlt : n < k
      · simp [Table.erase, hk, Table.insert, hlt, Table.find]
      · simp [Table.erase, hk, Table.insert, hlt, Table.find, ih]

theorem Table.find_insert_ne (d v : α) (l : List (Nat × α)) {n m : Nat} (h : m ≠ n) :
    Table.find d (Table.insert n v l) m = Table.find d l m := by
  induction l with
  | nil => simp [Table.insert, Table.find, Ne.symm h]
  | cons e rest ih =>
    obtain ⟨k, w⟩ := e
    by_cases hlt : n < k
    · simp [Table.insert, hlt, Table.find, Ne.symm h]
    · rw [Table.insert, if_neg hlt, Table.find, Table.find, ih]

/-- A read after a write of the same record gives the record written. -/
@[simp] theorem Table.get_put_same [DecidableEq α] (d : α) (t : Table α) (n : Nat) (v : α) :
    Table.get d (t.put d n v) n = v := by
  by_cases h : v = d
  · simp [Table.put, Table.get, h, Table.find_erase_same]
  · simp [Table.put, Table.get, h, Table.find_insert_same]

/-- A write leaves every other record as it was. -/
@[simp] theorem Table.get_put_ne [DecidableEq α] (d : α) (t : Table α) {n m : Nat} (v : α) (h : m ≠ n) :
    Table.get d (t.put d n v) m = Table.get d t m := by
  by_cases hv : v = d
  · simp [Table.put, Table.get, hv, Table.find_erase_ne d t.entries h]
  · simp [Table.put, Table.get, hv, Table.find_insert_ne d v _ h, Table.find_erase_ne d t.entries h]

theorem Table.get_put [DecidableEq α] (d : α) (t : Table α) (n m : Nat) (v : α) :
    Table.get d (t.put d n v) m = if m = n then v else Table.get d t m := by
  by_cases h : m = n
  · subst h; simp
  · simp [h]

@[simp] theorem Table.get_modify_same [DecidableEq α] (d : α) (t : Table α) (n : Nat) (f : α → α) :
    Table.get d (t.modify d n f) n = f (Table.get d t n) := Table.get_put_same d t n _

@[simp] theorem Table.get_modify_ne [DecidableEq α] (d : α) (t : Table α) {n m : Nat} (f : α → α) (h : m ≠ n) :
    Table.get d (t.modify d n f) m = Table.get d t m := Table.get_put_ne d t _ h

theorem Table.erase_erase (n : Nat) (l : List (Nat × α)) :
    Table.erase n (Table.erase n l) = Table.erase n l := by
  induction l with
  | nil => rfl
  | cons e l ih =>
    obtain ⟨k, w⟩ := e
    by_cases h : k = n <;> simp [Table.erase, h, ih]

theorem Table.erase_insert_same (n : Nat) (v : α) (l : List (Nat × α)) :
    Table.erase n (Table.insert n v (Table.erase n l)) = Table.erase n l := by
  have key : ∀ l : List (Nat × α), Table.erase n (Table.insert n v l) = Table.erase n l := by
    intro l
    induction l with
    | nil => simp [Table.insert, Table.erase]
    | cons e l ih =>
      obtain ⟨k, w⟩ := e
      by_cases h : n < k
      · simp [Table.insert, Table.erase, h]
      · simp [Table.insert, Table.erase, h, ih]
  rw [key, Table.erase_erase]

/-- Of two writes to one record the second stands. -/
@[simp] theorem Table.put_put [DecidableEq α] (d : α) (t : Table α) (n : Nat) (v w : α) :
    (t.put d n v).put d n w = t.put d n w := by
  by_cases hv : v = d <;> by_cases hw : w = d <;>
    simp [Table.put, hv, hw, Table.erase_erase, Table.erase_insert_same]

@[simp] theorem Table.get_empty (d : α) (n : Nat) : Table.get d (⟨[]⟩ : Table α) n = d := rfl

/-! ## The canonical form -/

/-- The canonical form as a proposition. -/
theorem Table.wf_iff [DecidableEq α] (d : α) (t : Table α) :
    t.wf d = true ↔
      t.entries.Pairwise (fun a b => a.1 < b.1) ∧ ∀ e ∈ t.entries, e.2 ≠ d := by
  simp [Table.wf]

theorem Table.mem_erase {n : Nat} {l : List (Nat × α)} {e : Nat × α} (h : e ∈ Table.erase n l) :
    e ∈ l ∧ e.1 ≠ n := by
  induction l with
  | nil => simp [Table.erase] at h
  | cons a rest ih =>
    obtain ⟨k, w⟩ := a
    by_cases hk : k = n
    · rw [Table.erase, if_pos hk] at h
      exact ⟨List.mem_cons_of_mem _ (ih h).1, (ih h).2⟩
    · rw [Table.erase, if_neg hk, List.mem_cons] at h
      rcases h with rfl | h
      · exact ⟨List.mem_cons_self, hk⟩
      · exact ⟨List.mem_cons_of_mem _ (ih h).1, (ih h).2⟩

theorem Table.pairwise_erase {n : Nat} {l : List (Nat × α)}
    (h : l.Pairwise fun a b => a.1 < b.1) : (Table.erase n l).Pairwise fun a b => a.1 < b.1 := by
  induction l with
  | nil => exact List.Pairwise.nil
  | cons a rest ih =>
    obtain ⟨k, w⟩ := a
    rw [List.pairwise_cons] at h
    by_cases hk : k = n
    · rw [Table.erase, if_pos hk]; exact ih h.2
    · rw [Table.erase, if_neg hk, List.pairwise_cons]
      exact ⟨fun e he => h.1 e (Table.mem_erase he).1, ih h.2⟩

theorem Table.mem_insert {n : Nat} {v : α} {l : List (Nat × α)} {e : Nat × α}
    (h : e ∈ Table.insert n v l) : e = (n, v) ∨ e ∈ l := by
  induction l with
  | nil => exact Or.inl (by simpa [Table.insert] using h)
  | cons a rest ih =>
    obtain ⟨k, w⟩ := a
    by_cases hlt : n < k
    · rw [Table.insert, if_pos hlt, List.mem_cons] at h
      exact h
    · rw [Table.insert, if_neg hlt, List.mem_cons] at h
      rcases h with rfl | h
      · exact Or.inr List.mem_cons_self
      · exact (ih h).imp id (List.mem_cons_of_mem _)

theorem Table.pairwise_insert {n : Nat} {v : α} {l : List (Nat × α)}
    (h : l.Pairwise fun a b => a.1 < b.1) (hn : ∀ e ∈ l, e.1 ≠ n) :
    (Table.insert n v l).Pairwise fun a b => a.1 < b.1 := by
  induction l with
  | nil => exact List.pairwise_singleton _ _
  | cons a rest ih =>
    obtain ⟨k, w⟩ := a
    have hk : k ≠ n := hn _ List.mem_cons_self
    rw [List.pairwise_cons] at h
    by_cases hlt : n < k
    · rw [Table.insert, if_pos hlt, List.pairwise_cons, List.pairwise_cons]
      refine ⟨fun e he => ?_, h⟩
      rcases List.mem_cons.1 he with rfl | he
      · exact hlt
      · exact Nat.lt_trans hlt (h.1 e he)
    · rw [Table.insert, if_neg hlt, List.pairwise_cons]
      refine ⟨fun e he => ?_, ih h.2 fun e he => hn e (List.mem_cons_of_mem _ he)⟩
      rcases Table.mem_insert he with rfl | he
      · show k < n
        omega
      · exact h.1 e he

/-- A write keeps the canonical form. -/
theorem Table.put_wf [DecidableEq α] (d : α) (t : Table α) (n : Nat) (v : α) (h : t.wf d = true) :
    (t.put d n v).wf d = true := by
  rw [Table.wf_iff] at h ⊢
  by_cases hv : v = d
  · rw [Table.put, if_pos hv]
    exact ⟨Table.pairwise_erase h.1, fun e he => h.2 e (Table.mem_erase he).1⟩
  · rw [Table.put, if_neg hv]
    refine ⟨Table.pairwise_insert (Table.pairwise_erase h.1) fun e he => (Table.mem_erase he).2,
      fun e he => ?_⟩
    rcases Table.mem_insert he with rfl | he
    · exact hv
    · exact h.2 e (Table.mem_erase he).1

theorem Table.modify_wf [DecidableEq α] (d : α) (t : Table α) (n : Nat) (f : α → α) (h : t.wf d = true) :
    (t.modify d n f).wf d = true := Table.put_wf d t n _ h

/-- A change of every record keeps the canonical form. -/
theorem Table.mapAll_wf [DecidableEq α] (d : α) (t : Table α) (f : α → α) (h : t.wf d = true) :
    (t.mapAll d f).wf d = true := by
  rw [Table.wf_iff] at h ⊢
  refine ⟨List.Pairwise.filter _ (h.1.map _ fun a b hab => hab), fun e he => ?_⟩
  simpa using (List.mem_filter.1 he).2

theorem Table.empty_wf [DecidableEq α] (d : α) : (⟨[]⟩ : Table α).wf d = true := by simp [Table.wf]

/-- A record of a canonical table that is not the default is listed, and only once. -/
theorem Table.find_of_mem (d : α) {l : List (Nat × α)} (h : l.Pairwise fun a b => a.1 < b.1)
    {n : Nat} {v : α} (hm : (n, v) ∈ l) : Table.find d l n = v := by
  induction l with
  | nil => simp at hm
  | cons a rest ih =>
    obtain ⟨k, w⟩ := a
    rw [List.pairwise_cons] at h
    rcases List.mem_cons.1 hm with he | he
    · cases he; simp [Table.find]
    · have : k ≠ n := Nat.ne_of_lt (h.1 _ he)
      simp [Table.find, this, ih h.2 he]

theorem Table.mem_of_find (d : α) {l : List (Nat × α)} {n : Nat} (h : Table.find d l n ≠ d) :
    (n, Table.find d l n) ∈ l := by
  induction l with
  | nil => exact absurd rfl h
  | cons a rest ih =>
    obtain ⟨k, w⟩ := a
    by_cases hk : k = n
    · subst hk; simp [Table.find]
    · rw [Table.find, if_neg hk] at h ⊢
      exact List.mem_cons_of_mem _ (ih h)

end Sys2Proof.Machine
end

