-- ==== Sys2Proof/Laws/Moves.lean ====
section
/-! SUPPORT. What an event of the part can do to the device, said once: `Device.Moves F C d e` lists the
elementary changes, and every shared operation is shown to be made of them. The settings, the clocks, the
store, the guard latch, the pins and the period number are not among them. -/

namespace Sys2Proof.Machine

/-- `e` is reached from `d` by elementary changes of its runtime records. A table changes within its
canonical form; the bounded lists change by their own rules. The records of terminals and lines change only
where `F` holds, and the counters of a printer only where `C` holds. -/
inductive Device.Moves (F C : Prop) (d : Device) : Device → Prop where
  | refl : Device.Moves F C d d
  | raise {e : Device} (h : Device.Moves F C d e) (f : Flag) (i : Nat) : Device.Moves F C d (e.raise f i)
  | clear {e : Device} (h : Device.Moves F C d e) (f : Flag) (i : Nat) : Device.Moves F C d (e.clearFlag f i)
  | attentionRestart {e : Device} (h : Device.Moves F C d e) : Device.Moves F C d { e with attention := {} }
  | fleet {e : Device} (h : Device.Moves F C d e) (t : Table Printer)
      (ht : e.printers.wf {} = true → t.wf {} = true)
      (hc : C ∨ ∀ p, (t.get {} p).counters = (e.printer p).counters) :
      Device.Moves F C d { e with printers := t }
  | rollover {e : Device} (h : Device.Moves F C d e) (t : Option Time) :
      Device.Moves F C d { e with nextRollover := t }
  | callouts {e : Device} (h : Device.Moves F C d e) (t : Table (Option Callout))
      (ht : e.callouts.wf none = true → t.wf none = true) : Device.Moves F C d { e with callouts := t }
  | calloutSerial {e : Device} (h : Device.Moves F C d e) (n : BitVec 16) :
      Device.Moves F C d { e with calloutSerial := n }
  | pendingList {e : Device} (h : Device.Moves F C d e) (l : List PendingEntry) :
      Device.Moves F C d { e with pendingList := l }
  | tenants {e : Device} (h : Device.Moves F C d e) (t : Table TenantTotals)
      (ht : e.tenants.wf {} = true → t.wf {} = true) : Device.Moves F C d { e with tenants := t }
  | accounts {e : Device} (h : Device.Moves F C d e) (t : Table AccountTotals)
      (ht : e.accounts.wf {} = true → t.wf {} = true) : Device.Moves F C d { e with accounts := t }
  | exhaust {e : Device} (h : Device.Moves F C d e) (x : Exhaustion) : Device.Moves F C d (e.addExhaustion x)
  | exhaustionsRead {e : Device} (h : Device.Moves F C d e) :
      Device.Moves F C d { e with exhaustions := [], exhaustionsDropped := 0 }
  | tickets {e : Device} (h : Device.Moves F C d e) (t : Table (Option Ticket))
      (ht : e.tickets.wf none = true → t.wf none = true) : Device.Moves F C d { e with tickets := t }
  | sequence {e : Device} (h : Device.Moves F C d e) (n : BitVec 32) :
      Device.Moves F C d { e with nextSequence := n }
  | queues {e : Device} (h : Device.Moves F C d e) (t : Table (List Nat))
      (ht : e.queues.wf [] = true → t.wf [] = true) : Device.Moves F C d { e with queues := t }
  | grantsLeave {e : Device} (h : Device.Moves F C d e) (l : List Grant)
      (hl : l.length ≤ e.grants.length) : Device.Moves F C d { e with grants := l }
  | grantJoins {e : Device} (h : Device.Moves F C d e) (g : Grant)
      (hr : e.grants.length < Config.grantRoom) : Device.Moves F C d { e with grants := e.grants ++ [g] }
  | waiting {e : Device} (h : Device.Moves F C d e) (l : List Nat) : Device.Moves F C d { e with waiting := l }
  | removal {e : Device} (h : Device.Moves F C d e) (r : Removal) : Device.Moves F C d (e.addRemoval r)
  | removalsRead {e : Device} (h : Device.Moves F C d e) :
      Device.Moves F C d { e with removals := [], removalsDropped := 0 }
  | terminals {e : Device} (h : Device.Moves F C d e) (t : Table Terminal)
      (ht : e.terminals.wf {} = true → t.wf {} = true) (hf : F) : Device.Moves F C d { e with terminals := t }
  | lines {e : Device} (h : Device.Moves F C d e) (t : Table Line)
      (ht : e.lines.wf {} = true → t.wf {} = true) (hf : F) : Device.Moves F C d { e with lines := t }
  | stock {e : Device} (h : Device.Moves F C d e) (t : Table Kind)
      (ht : e.stock.wf {} = true → t.wf {} = true) : Device.Moves F C d { e with stock := t }
  | orders {e : Device} (h : Device.Moves F C d e) (t : Table (Option Order))
      (ht : e.orders.wf none = true → t.wf none = true) : Device.Moves F C d { e with orders := t }
  | orderSerial {e : Device} (h : Device.Moves F C d e) (n : BitVec 16) :
      Device.Moves F C d { e with orderSerial := n }

variable {F C : Prop} {d e : Device}

theorem Device.Moves.trans {c : Device} (h : d.Moves F C e) (k : e.Moves F C c) : d.Moves F C c := by
  induction k with
  | refl => exact h
  | raise _ f i ih => exact ih.raise f i
  | clear _ f i ih => exact ih.clear f i
  | attentionRestart _ ih => exact ih.attentionRestart
  | fleet _ t ht hc ih => exact ih.fleet t ht hc
  | rollover _ t ih => exact ih.rollover t
  | callouts _ t ht ih => exact ih.callouts t ht
  | calloutSerial _ n ih => exact ih.calloutSerial n
  | pendingList _ l ih => exact ih.pendingList l
  | tenants _ t ht ih => exact ih.tenants t ht
  | accounts _ t ht ih => exact ih.accounts t ht
  | exhaust _ x ih => exact ih.exhaust x
  | exhaustionsRead _ ih => exact ih.exhaustionsRead
  | tickets _ t ht ih => exact ih.tickets t ht
  | sequence _ n ih => exact ih.sequence n
  | queues _ t ht ih => exact ih.queues t ht
  | grantsLeave _ l hl ih => exact ih.grantsLeave l hl
  | grantJoins _ g hr ih => exact ih.grantJoins g hr
  | waiting _ l ih => exact ih.waiting l
  | removal _ r ih => exact ih.removal r
  | removalsRead _ ih => exact ih.removalsRead
  | terminals _ t ht hf ih => exact ih.terminals t ht hf
  | lines _ t ht hf ih => exact ih.lines t ht hf
  | stock _ t ht ih => exact ih.stock t ht
  | orders _ t ht ih => exact ih.orders t ht
  | orderSerial _ n ih => exact ih.orderSerial n

/-- Moves that may touch less may also touch more. -/
theorem Device.Moves.mono {F' C' : Prop} (hf : F → F') (hc : C → C') (h : d.Moves F C e) :
    d.Moves F' C' e := by
  induction h with
  | refl => exact .refl
  | raise _ f i ih => exact ih.raise f i
  | clear _ f i ih => exact ih.clear f i
  | attentionRestart _ ih => exact ih.attentionRestart
  | fleet _ t ht k ih => exact ih.fleet t ht (k.imp hc id)
  | rollover _ t ih => exact ih.rollover t
  | callouts _ t ht ih => exact ih.callouts t ht
  | calloutSerial _ n ih => exact ih.calloutSerial n
  | pendingList _ l ih => exact ih.pendingList l
  | tenants _ t ht ih => exact ih.tenants t ht
  | accounts _ t ht ih => exact ih.accounts t ht
  | exhaust _ x ih => exact ih.exhaust x
  | exhaustionsRead _ ih => exact ih.exhaustionsRead
  | tickets _ t ht ih => exact ih.tickets t ht
  | sequence _ n ih => exact ih.sequence n
  | queues _ t ht ih => exact ih.queues t ht
  | grantsLeave _ l hl ih => exact ih.grantsLeave l hl
  | grantJoins _ g hr ih => exact ih.grantJoins g hr
  | waiting _ l ih => exact ih.waiting l
  | removal _ r ih => exact ih.removal r
  | removalsRead _ ih => exact ih.removalsRead
  | terminals _ t ht k ih => exact ih.terminals t ht (hf k)
  | lines _ t ht k ih => exact ih.lines t ht (hf k)
  | stock _ t ht ih => exact ih.stock t ht
  | orders _ t ht ih => exact ih.orders t ht
  | orderSerial _ n ih => exact ih.orderSerial n

/-- A fold of moves is a move. -/
theorem Device.Moves.foldl {α : Type} {g : Device → α → Device}
    (hg : ∀ (e : Device) (a : α), d.Moves F C e → d.Moves F C (g e a)) (h : d.Moves F C e) (l : List α) :
    d.Moves F C (l.foldl g e) := by
  induction l generalizing e with
  | nil => exact h
  | cons a rest ih => exact ih (hg e a h)

/-- A choice between moves is a move. -/
theorem Device.Moves.ite {p : Prop} [Decidable p] {a b : Device} (ha : d.Moves F C a) (hb : d.Moves F C b) :
    d.Moves F C (if p then a else b) := by
  split <;> assumption

/-! ## The elementary writes -/

theorem Device.putPrinter_moves (h : d.Moves F C e) (slot : Nat) (r : Printer)
    (hc : C ∨ r.counters = (e.printer slot).counters) : d.Moves F C (e.putPrinter slot r) := by
  refine h.fleet _ (Table.put_wf _ _ _ _) (hc.imp id fun k p => ?_)
  by_cases hp : p = slot
  · subst hp
    rw [Table.get_put_same]
    exact k
  · rw [Table.get_put_ne _ _ _ hp]
    rfl

theorem Device.modPrinter_moves (h : d.Moves F C e) (slot : Nat) (f : Printer → Printer)
    (hc : C ∨ ∀ p, (f p).counters = p.counters) : d.Moves F C (e.modPrinter slot f) :=
  Device.putPrinter_moves h slot _ (hc.imp id fun k => k _)

theorem Device.modTenant_moves (h : d.Moves F C e) (n : Nat) (f : TenantTotals → TenantTotals) :
    d.Moves F C (e.modTenant n f) := h.tenants _ (Table.modify_wf _ _ _ _)

theorem Device.modAccount_moves (h : d.Moves F C e) (n : Nat) (f : AccountTotals → AccountTotals) :
    d.Moves F C (e.modAccount n f) := h.accounts _ (Table.modify_wf _ _ _ _)

theorem Device.putCallout_moves (h : d.Moves F C e) (n : Nat) (c : Option Callout) :
    d.Moves F C (e.putCallout n c) := h.callouts _ (Table.put_wf _ _ _ _)

theorem Device.putTicket_moves (h : d.Moves F C e) (n : Nat) (t : Option Ticket) :
    d.Moves F C (e.putTicket n t) := h.tickets _ (Table.put_wf _ _ _ _)

theorem Device.putQueue_moves (h : d.Moves F C e) (slot : Nat) (q : List Nat) :
    d.Moves F C (e.putQueue slot q) := h.queues _ (Table.put_wf _ _ _ _)

theorem Device.modTerminal_moves (h : d.Moves True C e) (i : Nat) (f : Terminal → Terminal) :
    d.Moves True C (e.modTerminal i f) := h.terminals _ (Table.modify_wf _ _ _ _) trivial

theorem Device.modLine_moves (h : d.Moves True C e) (n : Nat) (f : Line → Line) :
    d.Moves True C (e.modLine n f) := h.lines _ (Table.modify_wf _ _ _ _) trivial

theorem Device.modKind_moves (h : d.Moves F C e) (n : Nat) (f : Kind → Kind) :
    d.Moves F C (e.modKind n f) := h.stock _ (Table.modify_wf _ _ _ _)

theorem Device.putOrder_moves (h : d.Moves F C e) (n : Nat) (o : Option Order) :
    d.Moves F C (e.putOrder n o) := h.orders _ (Table.put_wf _ _ _ _)

/-! ## Attention -/

theorem Device.raiseCauses_moves (h : d.Moves F C e) (f : Flag) : d.Moves F C (e.raiseCauses f) :=
  h.foldl (fun _ i k => .ite (k.raise f i) k) _

theorem Device.clearInstances_moves (h : d.Moves F C e) (f : Flag) : d.Moves F C (e.clearInstances f) :=
  h.foldl (fun _ i k => k.clear f i) _

theorem Device.raiseIf_moves (h : d.Moves F C e) (b : Bool) (f : Flag) : d.Moves F C (e.raiseIf b f) :=
  .ite (h.raise f 0) h

/-! ## Stock and orders -/

theorem Device.setBlocked_moves (h : d.Moves F C e) (k : Nat) (b : Bool) : d.Moves F C (e.setBlocked k b) :=
  Device.modKind_moves h k _

theorem Device.propose_moves (h : d.Moves F C e) (k n : Nat) : d.Moves F C (e.propose k n) :=
  ((Device.putOrder_moves h n _).orderSerial _).raise _ _

theorem Device.evaluate_moves (h : d.Moves F C e) (k : Nat) : d.Moves F C (e.evaluate k) := by
  unfold Device.evaluate
  split
  · split
    · exact Device.setBlocked_moves (Device.propose_moves h k _) k false
    · exact .ite h ((Device.setBlocked_moves h k true).raise _ _)
  · exact Device.setBlocked_moves h k false

theorem Device.offerOrders_moves (h : d.Moves F C e) : d.Moves F C e.offerOrders :=
  h.foldl (fun _ k m => .ite (Device.evaluate_moves m k) m) _

theorem Device.evaluateMoved_moves (b : Device) (h : d.Moves F C e) : d.Moves F C (Device.evaluateMoved b e) :=
  h.foldl (fun _ k m => .ite (Device.evaluate_moves m k) m) _

theorem Device.clearHold_moves (h : d.Moves F C e) (k : Nat) : d.Moves F C (e.clearHold k) :=
  Device.modKind_moves h k _

theorem Device.setOnHand_moves (h : d.Moves F C e) (k n : Nat) : d.Moves F C (e.setOnHand k n) :=
  Device.modKind_moves h k _

theorem Device.takeInstall_moves (h : d.Moves F C e) (slot : Nat) (k : Option Nat) :
    d.Moves F C (e.takeInstall slot k) := by
  unfold Device.takeInstall
  split
  · exact h
  · exact .ite (.ite (h.raise _ _) (Device.evaluate_moves (Device.setOnHand_moves h _ _) _)) h

theorem Device.freeOrderRecord_moves (h : d.Moves F C e) (n : Nat) : d.Moves F C (e.freeOrderRecord n) :=
  Device.putOrder_moves h n none

theorem Device.approve_moves (h : d.Moves F C e) (n : Nat) (o : Order) (q : Nat) :
    d.Moves F C (e.approve n o q) :=
  .ite (Device.putOrder_moves h n _) (Device.evaluate_moves (Device.putOrder_moves h n _) _)

theorem Device.decline_moves (h : d.Moves F C e) (n : Nat) (o : Order) : d.Moves F C (e.decline n o) :=
  Device.offerOrders_moves
    (Device.evaluate_moves (Device.modKind_moves (Device.freeOrderRecord_moves h n) _ _) _)

theorem Device.deliver_moves (h : d.Moves F C e) (n : Nat) (o : Order) (p : Placed) (q : Nat) :
    d.Moves F C (e.deliver n o p q) :=
  .ite (Device.evaluate_moves (Device.putOrder_moves (Device.setOnHand_moves h _ _) _ _) _)
    (Device.offerOrders_moves
      (Device.evaluate_moves (Device.freeOrderRecord_moves (Device.setOnHand_moves h _ _) _) _))

theorem Device.overdueDeadline_moves (h : d.Moves F C e) (n : Nat) : d.Moves F C (e.overdueDeadline n) := by
  unfold Device.overdueDeadline
  split
  · exact h
  · exact .ite ((Device.putOrder_moves h n _).raise _ _) h

/-! ## Faults and callouts -/

theorem Device.putFault_moves (h : d.Moves F C e) (slot : Nat) (cls : FaultClass) (r : FaultRecord) :
    d.Moves F C (e.putFault slot cls r) := Device.modPrinter_moves h slot _ (.inr (by intro _; rfl))

theorem Device.hand_moves (h : d.Moves F C e) (slot : Nat) (cls : FaultClass) (a : Bool)
    (code : Option Nat := none) : d.Moves F C (e.hand slot cls a code) :=
  .ite h (.ite (.ite ((Device.putFault_moves h slot cls _).raise _ _) (Device.putFault_moves h slot cls _))
    (Device.putFault_moves h slot cls _))

theorem Device.handMapped_moves (h : d.Moves F C e) (slot : Nat) (codes : List Nat) :
    d.Moves F C (e.handMapped slot codes) :=
  h.foldl (fun _ cls m => Device.hand_moves m slot cls _ _) _

theorem Device.clearLatches_moves (h : d.Moves F C e) (slot : Nat) : d.Moves F C (e.clearLatches slot) :=
  Device.modPrinter_moves h slot _ (.inr (by intro _; rfl))

theorem Device.clearFaults_moves (h : d.Moves F C e) (slot : Nat) (l : List FaultClass) :
    d.Moves F C (e.clearFaults slot l) := Device.modPrinter_moves h slot _ (.inr (by intro _; rfl))

theorem Device.leavePending_moves (h : d.Moves F C e) (slot : Nat) : d.Moves F C (e.leavePending slot) :=
  h.pendingList _

theorem Device.openCallout_moves (h : d.Moves F C e) (n slot : Nat) (code : Option Nat) :
    d.Moves F C (e.openCallout n slot code) :=
  ((Device.putCallout_moves h n _).calloutSerial _).raise _ _

theorem Device.joinPending_moves (h : d.Moves F C e) (slot : Nat) (cls : FaultClass) (code : Option Nat) :
    d.Moves F C (e.joinPending slot cls code) := .ite h (h.pendingList _)

theorem Device.openOrPend_moves (h : d.Moves F C e) (slot : Nat) (cls : FaultClass) (code : Option Nat) :
    d.Moves F C (e.openOrPend slot cls code) := by
  unfold Device.openOrPend
  split
  · exact Device.openCallout_moves h _ _ _
  · exact Device.joinPending_moves h _ _ _

theorem Device.takeLatching_moves (h : d.Moves F C e) (slot : Nat) (cls : FaultClass) :
    d.Moves F C (e.takeLatching slot cls) := by
  unfold Device.takeLatching
  refine .ite h ?_
  split
  · exact Device.putCallout_moves h _ _
  · exact .ite h (Device.openOrPend_moves h _ _ _)

theorem Device.handLatchings_moves (h : d.Moves F C e) (slot : Nat) (old : ByClass Bool) :
    d.Moves F C (e.handLatchings slot old) :=
  h.foldl (fun _ cls m => .ite (Device.takeLatching_moves m slot cls) m) _

theorem Device.offerCallout_moves (h : d.Moves F C e) : d.Moves F C e.offerCallout := by
  unfold Device.offerCallout
  split
  · exact h.pendingList _
  · split
    · exact Device.openCallout_moves (h.pendingList _) _ _ _
    · exact h

theorem Device.freeCalloutRecord_moves (h : d.Moves F C e) (n : Nat) : d.Moves F C (e.freeCalloutRecord n) :=
  Device.offerCallout_moves (Device.putCallout_moves h n none)

theorem Device.freeCalloutOf_moves (h : d.Moves F C e) (slot : Nat) : d.Moves F C (e.freeCalloutOf slot) := by
  unfold Device.freeCalloutOf
  split
  · exact Device.freeCalloutRecord_moves h _
  · exact h

theorem Device.afterClearFault_moves (h : d.Moves F C e) (slot : Nat) : d.Moves F C (e.afterClearFault slot) :=
  .ite h (Device.leavePending_moves h slot)

theorem Device.escalation_moves (h : d.Moves F C e) (n : Nat) : d.Moves F C (e.escalation n) := by
  unfold Device.escalation
  split
  · exact h
  · split
    · exact h
    · exact .ite ((Device.putCallout_moves h _ _).raise _ _) h

/-! ## Charging -/

theorem Device.modReserved_moves (h : d.Moves F C e) (a : Nat) (f : Nat → Nat) :
    d.Moves F C (e.modReserved a f) := Device.modTenant_moves (Device.modAccount_moves h _ _) _ _

theorem Device.reserve_moves (h : d.Moves F C e) (a n : Nat) : d.Moves F C (e.reserve a n) :=
  Device.modReserved_moves h a _

theorem Device.unreserve_moves (h : d.Moves F C e) (a n : Nat) : d.Moves F C (e.unreserve a n) :=
  Device.modReserved_moves h a _

theorem Device.applyCharge_moves (h : d.Moves F C e) (a r cu : Nat) : d.Moves F C (e.applyCharge a r cu) :=
  Device.modTenant_moves (Device.modAccount_moves (Device.unreserve_moves h a r) _ _) _ _

theorem Device.settle_moves (h : d.Moves F C e) (a r cu : Nat) : d.Moves F C (e.settle a r cu) := by
  unfold Device.settle
  dsimp only
  split
  · exact Device.applyCharge_moves h a r cu
  · exact ((Device.applyCharge_moves h a r cu).exhaust _).raise _ _

/-! ## Queues -/

theorem Device.endStall_moves (h : d.Moves F C e) (slot : Nat) : d.Moves F C (e.endStall slot) :=
  Device.hand_moves (Device.modPrinter_moves h slot _ (.inr (by intro _; rfl))) slot .stall false

theorem Device.leaveQueue_moves (h : d.Moves F C e) (n : Nat) (p : TicketPhase) :
    d.Moves F C (e.leaveQueue n p) := by
  unfold Device.leaveQueue
  split
  · exact h
  · exact Device.putQueue_moves h _ _
  · exact Device.endStall_moves
      ((Device.putQueue_moves h _ _).grantsLeave _ (List.length_filter_le _ _)) _

theorem Device.depart_moves (h : d.Moves F C e) (n : Nat) (t : Ticket) : d.Moves F C (e.depart n t) :=
  Device.putTicket_moves (Device.modAccount_moves (Device.leaveQueue_moves h n _) _ _) _ _

theorem Device.departListed_moves (h : d.Moves F C e) (n : Nat) (t : Ticket) (r : RemovalReason)
    (cu : Option Nat) : d.Moves F C (e.departListed n t r cu) := (Device.depart_moves h n t).removal _

theorem Device.expire_moves (h : d.Moves F C e) (n : Nat) (t : Ticket) : d.Moves F C (e.expire n t) :=
  (Device.departListed_moves h n t _ _).raise _ _

theorem Device.returnReservation_moves (h : d.Moves F C e) (t : Ticket) :
    d.Moves F C (e.returnReservation t) := by
  unfold Device.returnReservation
  split
  · exact Device.unreserve_moves h _ _
  · exact h

theorem Device.toHeld_moves (h : d.Moves F C e) (n : Nat) (t : Ticket) (r : Bool) :
    d.Moves F C (e.toHeld n t r) := by
  have now := Device.putTicket_moves (Device.returnReservation_moves (Device.leaveQueue_moves h n t.phase) t)
    n (some (t.backToHeld r))
  exact .ite (Device.expire_moves now n _) now

theorem Device.toHeldAll_moves (h : d.Moves F C e) (ns : List Nat) : d.Moves F C (e.toHeldAll ns) := by
  refine h.foldl (fun a n m => ?_) _
  split
  · exact Device.toHeld_moves m _ _ _
  · exact m

theorem Device.returnUnprintable_moves (h : d.Moves F C e) (slot : Nat) :
    d.Moves F C (e.returnUnprintable slot) := .ite h (Device.toHeldAll_moves h _)

theorem Device.settleTicket_moves (h : d.Moves F C e) (n : Nat) (t : Ticket) (a : Admitted) (c : Totals)
    (r : Option RemovalReason) : d.Moves F C (e.settleTicket n t a c r) := by
  unfold Device.settleTicket
  split
  · exact Device.departListed_moves (Device.settle_moves h _ _ _) _ _ _ _
  · exact Device.depart_moves (Device.settle_moves h _ _ _) _ _

theorem Device.endFromAccumulators_moves (h : d.Moves F C e) (n : Nat) (t : Ticket) (a : Admitted)
    (r : RemovalReason) : d.Moves F C (e.endFromAccumulators n t a r) :=
  .ite (Device.toHeld_moves h n t true) (Device.settleTicket_moves h n t a _ _)

theorem Device.promote_moves (h : d.Moves F C e) (hr : e.grants.length < Config.grantRoom) (slot n : Nat)
    (t : Ticket) (a : Admitted) : d.Moves F C (e.promote slot n t a) := by
  have started := Device.modPrinter_moves (Device.putTicket_moves h n
    (some { t with phase := .printing a false (after e.uptime (e.work.completionMinutes * 60)) })) slot
    (fun p => { p with printing := {} }) (.inr (by intro _; rfl))
  exact ((started.grantJoins (Grant.mk t.jobId n slot) hr).waiting _).raise _ _

theorem Device.consider_moves (h : d.Moves F C e) (slot : Nat) : d.Moves F C (e.consider slot) := by
  unfold Device.consider
  split
  · exact h.waiting _
  · split
    · exact Device.promote_moves h ‹_› _ _ _ _
    · exact .ite h (h.waiting _)

theorem Device.handRoom_moves (h : d.Moves F C e) : d.Moves F C e.handRoom :=
  h.foldl (fun _ slot m => .ite (Device.consider_moves m slot) m) _

theorem Device.afterLeaving_moves (h : d.Moves F C e) (slot : Nat) : d.Moves F C (e.afterLeaving slot) :=
  Device.consider_moves (Device.handRoom_moves h) slot

/-! ## Fleet -/

theorem Device.endForService_moves (h : d.Moves F C e) (slot : Nat) : d.Moves F C (e.endForService slot) := by
  unfold Device.endForService
  split
  · split
    · exact Device.endFromAccumulators_moves h _ _ _ _
    · exact h
    · exact h
  · exact h

theorem Device.queueTakesState_moves (h : d.Moves F C e) (slot : Nat) :
    d.Moves F C (e.queueTakesState slot) :=
  .ite (Device.returnUnprintable_moves (Device.endForService_moves h slot) slot)
    (Device.returnUnprintable_moves h slot)

theorem Device.changeState_moves (h : d.Moves F C e) (slot : Nat) (st : PrinterState) :
    d.Moves F C (e.changeState slot st) :=
  Device.queueTakesState_moves ((Device.modPrinter_moves h slot _ (.inr (by intro _; rfl))).raise _ _) slot

theorem Device.rederive_moves (h : d.Moves F C e) (slot : Nat) : d.Moves F C (e.rederive slot) :=
  .ite h (Device.afterLeaving_moves (Device.changeState_moves h slot _) slot)

theorem Device.finishEvent_moves (b : Device) (h : d.Moves F C e) (slot : Nat) :
    d.Moves F C (Device.finishEvent b slot e) :=
  Device.rederive_moves (Device.handLatchings_moves h slot _) slot

theorem Device.handServiceDue_moves (h : d.Moves F C e) (slot : Nat) : d.Moves F C (e.handServiceDue slot) :=
  Device.hand_moves h slot _ _

theorem Device.handSupplyEmpty_moves (h : d.Moves F C e) (slot : Nat) : d.Moves F C (e.handSupplyEmpty slot) :=
  Device.hand_moves h slot _ _

theorem Device.handConsumption_moves (h : d.Moves F C e) (slot : Nat) : d.Moves F C (e.handConsumption slot) :=
  Device.hand_moves h slot _ _

theorem Device.handSilence_moves (h : d.Moves F C e) (slot : Nat) : d.Moves F C (e.handSilence slot) :=
  Device.hand_moves h slot _ _

theorem Device.evaluateSupplyFlags_moves (h : d.Moves F C e) (slot : Nat) :
    d.Moves F C (e.evaluateSupplyFlags slot) := by
  have stored := Device.modPrinter_moves h slot
    (fun p => { p with low := e.isLow slot, out := e.isOut slot }) (.inr (by intro _; rfl))
  have low : d.Moves F C (if e.isLow slot && !(e.printer slot).low then _ else _) :=
    .ite (stored.raise .supplyLow slot) stored
  exact .ite (low.raise .supplyOut slot) low

theorem Device.silenceExpiry_moves (h : d.Moves F True e) (slot : Nat) : d.Moves F True (e.silenceExpiry slot) := by
  unfold Device.silenceExpiry
  split
  · exact h
  · exact .ite (Device.finishEvent_moves e (Device.handSilence_moves
      (Device.modPrinter_moves h slot _ (.inl trivial)) slot) slot) h

theorem Device.checkStall_moves (h : d.Moves F C e) (slot : Nat) : d.Moves F C (e.checkStall slot) :=
  .ite (Device.finishEvent_moves e (Device.hand_moves h slot .stall true) slot) h

theorem Device.stallExpiry_moves (h : d.Moves F C e) (slot : Nat) : d.Moves F C (e.stallExpiry slot) :=
  Device.checkStall_moves h slot

theorem Device.holdoffExpiry_moves (h : d.Moves F C e) (slot : Nat) (cls : FaultClass) :
    d.Moves F C (e.holdoffExpiry slot cls) := by
  unfold Device.holdoffExpiry
  split
  · exact h
  · exact .ite (Device.finishEvent_moves e (Device.putFault_moves h slot cls _) slot) h

/-! ## Forecasts -/

theorem Device.putForecast_moves (h : d.Moves F C e) (slot : Nat) (ch : Channel) (f : Forecast) :
    d.Moves F C (e.putForecast slot ch f) := Device.modPrinter_moves h slot _ (.inr (by intro _; rfl))

theorem Device.handLevelChange_moves (h : d.Moves F C e) (slot : Nat) (ch : Channel) (a b : Option Nat) :
    d.Moves F C (e.handLevelChange slot ch a b) := .ite (Device.handSupplyEmpty_moves h slot) h

theorem Device.handDaysChange_moves (h : d.Moves F C e) (slot : Nat) (ch : Channel) (a b : Option Nat) :
    d.Moves F C (e.handDaysChange slot ch a b) := by
  unfold Device.handDaysChange
  split
  · exact h
  · exact .ite h (Device.evaluate_moves h _)

theorem Device.handConsuming_moves (h : d.Moves F C e) (slot : Nat) (a b : Bool) :
    d.Moves F C (e.handConsuming slot a b) := .ite h (Device.handConsumption_moves h slot)

theorem Device.storeForecast_moves (h : d.Moves F C e) (slot : Nat) (ch : Channel) (f : Forecast) :
    d.Moves F C (e.storeForecast slot ch f) := by
  have stored := Device.handConsuming_moves (Device.putForecast_moves h slot ch (e.withDays slot ch f))
    slot (e.forecast slot ch).consuming (e.withDays slot ch f).consuming
  exact .ite stored (Device.evaluateSupplyFlags_moves
    (Device.handDaysChange_moves (Device.handLevelChange_moves stored _ _ _ _) _ _ _ _) _)

theorem Device.setMark_moves (h : d.Moves F C e) (slot : Nat) (ch : Channel) (m : Bool) :
    d.Moves F C (e.setMark slot ch m) :=
  .ite h (Device.storeForecast_moves (Device.modPrinter_moves h slot _ (.inr (by intro _; rfl))) slot ch _)

theorem Device.takeMarks_moves (h : d.Moves F C e) (slot : Nat) (codes : List Nat) :
    d.Moves F C (e.takeMarks slot codes) := h.foldl (fun _ ch m => Device.setMark_moves m slot ch _) _

theorem Device.addAnchors_moves (h : d.Moves F C e) (slot m c : Nat) : d.Moves F C (e.addAnchors slot m c) :=
  h.foldl (fun _ ch k => Device.putForecast_moves k slot ch _) _

theorem Device.takeKnownLevel_moves (h : d.Moves F C e) (slot : Nat) (ch : Channel) (level : Nat) :
    d.Moves F C (e.takeKnownLevel slot ch level) := by
  unfold Device.takeKnownLevel
  dsimp only
  split
  · exact Device.storeForecast_moves h slot ch _
  · exact .ite (Device.storeForecast_moves (Device.takeInstall_moves h slot _) slot ch _)
      (.ite (.ite (Device.storeForecast_moves h slot ch _) (Device.storeForecast_moves h slot ch _))
        (Device.storeForecast_moves h slot ch _))

theorem Device.takeLevel_moves (h : d.Moves F C e) (slot : Nat) (ch : Channel) (byte : Nat) :
    d.Moves F C (e.takeLevel slot ch byte) := by
  unfold Device.takeLevel
  split
  · exact h
  · exact .ite h (Device.takeKnownLevel_moves h slot ch _)

theorem Device.takeLevels_moves (h : d.Moves F C e) (slot : Nat) (l : ByChannel Nat) :
    d.Moves F C (e.takeLevels slot l) := h.foldl (fun _ ch m => Device.takeLevel_moves m slot ch _) _

theorem Device.freshRollover_moves (h : d.Moves F C e) : d.Moves F C e.freshRollover := h.rollover _

theorem Device.redays_moves (h : d.Moves F C e) (slot : Nat) : d.Moves F C (e.redays slot) :=
  h.foldl (fun _ ch m => Device.putForecast_moves m slot ch _) _

theorem Device.rolloverSlot_moves (h : d.Moves F True e) (slot : Nat) : d.Moves F True (e.rolloverSlot slot) :=
  Device.evaluateSupplyFlags_moves (Device.redays_moves (Device.modPrinter_moves h slot _ (.inl trivial)) slot) slot

theorem Device.clearHolds_moves (h : d.Moves F C e) : d.Moves F C e.clearHolds :=
  h.stock _ (Table.mapAll_wf _ _ _)

theorem Device.evaluateAfterRollover_moves (b : Device) (h : d.Moves F C e) :
    d.Moves F C (Device.evaluateAfterRollover b e) :=
  h.foldl (fun _ k m => .ite (Device.evaluate_moves m k) m) _

theorem Device.takeRollover_moves (h : d.Moves F True e) : d.Moves F True e.takeRollover :=
  Device.evaluateAfterRollover_moves e
    (Device.clearHolds_moves (h.foldl (fun _ p m => Device.rolloverSlot_moves m p) _))

theorem Device.dayRollover_moves (h : d.Moves F True e) : d.Moves F True e.dayRollover :=
  .ite (Device.freshRollover_moves (Device.takeRollover_moves h)) h

theorem Device.applyFloors_moves (a b : ForecastSettings) (h : d.Moves F C e) (slot : Nat) :
    d.Moves F C (Device.applyFloors a b e slot) :=
  .ite h (Device.finishEvent_moves e (Device.handConsumption_moves (Device.modPrinter_moves h slot _ (.inr (by intro _; rfl))) slot)
    slot)

/-! ## Jobs -/

theorem Device.checkStoreHigh_moves (b : Device) (h : d.Moves F C e) :
    d.Moves F C (Device.checkStoreHigh b e) := .ite (h.raise _ _) h

theorem Device.submit_moves (h : d.Moves F C e) (n : Nat) (t : Ticket) : d.Moves F C (e.submit n t) :=
  Device.checkStoreHigh_moves e
    ((Device.modAccount_moves (Device.putTicket_moves h n _) _ _).sequence _)

theorem Device.ticketExpiry_moves (h : d.Moves F C e) (n : Nat) : d.Moves F C (e.ticketExpiry n) := by
  unfold Device.ticketExpiry
  split
  · exact .ite (Device.expire_moves h _ _) h
  · exact h

theorem Device.cancelTicket_moves (h : d.Moves F C e) (n : Nat) (t : Ticket) :
    d.Moves F C (e.cancelTicket n t) := by
  unfold Device.cancelTicket
  split
  · exact Device.afterLeaving_moves (Device.depart_moves (Device.returnReservation_moves h t) n t) _
  · exact Device.depart_moves h n t
  · exact Device.depart_moves h n t

theorem Device.releaseInto_moves (h : d.Moves F C e) (q n : Nat) (t : Ticket) :
    d.Moves F C (e.releaseInto q n t) :=
  Device.consider_moves
    (Device.putQueue_moves (Device.putTicket_moves (Device.reserve_moves h _ _) _ _) _ _) _

theorem Device.releaseRef_moves (h : d.Moves F C e) (a q : Nat) (r : PageRef) :
    d.Moves F C (e.releaseRef a q r).1 := by
  unfold Device.releaseRef
  split
  · exact h
  · split
    · exact Device.releaseInto_moves h _ _ _
    · exact Device.putTicket_moves h _ _

theorem Walk.step_moves (a q : Nat) (w : Walk) (r : PageRef) (h : d.Moves F C w.device) :
    d.Moves F C (Walk.step a q w r).device := by
  have k := Device.releaseRef_moves h a q r
  unfold Walk.step
  split <;> (rename_i heq; rw [heq] at k; exact k)

theorem Device.releaseWalk_moves (h : d.Moves F C e) (a q : Nat) :
    d.Moves F C (e.releaseWalk a q).device := by
  have key : ∀ (l : List PageRef) (w : Walk), d.Moves F C w.device →
      d.Moves F C (l.foldl (Walk.step a q) w).device := by
    intro l
    induction l with
    | nil => exact fun _ k => k
    | cons r rest ih => exact fun w k => ih _ (Walk.step_moves a q w r k)
  exact key _ _ h

theorem Device.cancelRef_moves (h : d.Moves F C e) (a q : Nat) (r : PageRef) {c : Device}
    (hc : e.cancelRef a q r = some c) : d.Moves F C c := by
  unfold Device.cancelRef at hc
  obtain ⟨t, -, rfl⟩ := Option.map_eq_some_iff.1 hc
  exact Device.departListed_moves h _ _ _ _

theorem Device.takeGrant_moves (h : d.Moves F C e) (g : Grant) : d.Moves F C (e.takeGrant g) := by
  unfold Device.takeGrant
  dsimp only
  refine Device.modPrinter_moves ?_ g.printer _ (.inr (by intro _; rfl))
  split
  · split
    · exact Device.putTicket_moves h _ _
    · exact h
    · exact h
  · exact h

theorem Device.takeGrants_moves (h : d.Moves F C e) (n : Nat) : d.Moves F C (e.takeGrants n) :=
  Device.handRoom_moves
    ((h.grantsLeave (e.grants.drop n) (by simp)).foldl (fun _ g m => Device.takeGrant_moves m g) _)

theorem Device.completeJob_moves (h : d.Moves F C e) (n : Nat) (t : Ticket) (a : Admitted) (c : Totals)
    (o : Nat) : d.Moves F C (e.completeJob n t a c o) :=
  Device.afterLeaving_moves (Device.settleTicket_moves h n t a c _) _

theorem Device.completionDeadline_moves (h : d.Moves F C e) (n : Nat) :
    d.Moves F C (e.completionDeadline n) := by
  unfold Device.completionDeadline
  split
  · exact h
  · split
    · exact .ite (Device.afterLeaving_moves
        ((Device.endFromAccumulators_moves h _ _ _ _).raise _ _) _) h
    · exact h
    · exact h

/-! ## Printers and service -/

theorem Device.takeAdvance_moves (h : d.Moves F C e) (slot n : Nat) : d.Moves F C (e.takeAdvance slot n) :=
  .ite (Device.hand_moves (Device.modPrinter_moves h slot _ (.inr (by intro _; rfl))) slot .stall false) h

theorem Device.takeTotals_moves (h : d.Moves F True e) (r : Report) : d.Moves F True (e.takeTotals r) := by
  have counted := Device.modPrinter_moves h r.slot (fun p =>
    (p.takeDeltas (e.printingTicket r.slot).isSome ((e.printer r.slot).deltas r.totals)).restart r.totals
      (after e.uptime (e.settings r.slot).reportInterval)) (.inl trivial)
  exact Device.handServiceDue_moves (Device.takeAdvance_moves (Device.hand_moves (Device.hand_moves
    (.ite counted (Device.addAnchors_moves counted _ _ _)) _ _ _) _ _ _) _ _) _

theorem Device.takeReport_moves (h : d.Moves F True e) (r : Report) : d.Moves F True (e.takeReport r) :=
  Device.finishEvent_moves e (Device.takeLevels_moves (Device.handMapped_moves (Device.takeMarks_moves
    (Device.takeTotals_moves h r) _ _) _ _) _ _) _

theorem Device.handChanges_moves (h : d.Moves F C e) (slot : Nat) (a b : PrinterSettings) :
    d.Moves F C (e.handChanges slot a b) := by
  have silence : d.Moves F C (if a.missedLimit = b.missedLimit then e else e.handSilence slot) :=
    .ite h (Device.handSilence_moves h slot)
  have due : d.Moves F C (if a.serviceInterval = b.serviceInterval then _ else _) :=
    .ite silence (Device.handServiceDue_moves silence slot)
  exact .ite due (Device.evaluateSupplyFlags_moves
    (Device.handConsumption_moves (Device.handSupplyEmpty_moves due slot) slot) slot)

theorem Device.retireAll_moves (h : d.Moves F C e) (slot g : Nat) : d.Moves F C (e.retargetAll slot g) :=
  h.tickets _ (Table.mapAll_wf _ _ _)

theorem Device.retirePrinter_moves (h : d.Moves F True e) (slot : Nat) : d.Moves F True (e.retirePrinter slot) :=
  Device.rederive_moves (Device.freeCalloutOf_moves (Device.leavePending_moves
    (Device.evaluateMoved_moves e (Device.evaluateSupplyFlags_moves (Device.redays_moves
      (Device.modPrinter_moves (Device.retireAll_moves h _ _) _ _ (.inl trivial)) _) _)) _) _) _

theorem Device.takeClearFault_moves (h : d.Moves F C e) (slot : Nat) (l : List FaultClass) :
    d.Moves F C (e.takeClearFault slot l) :=
  Device.afterClearFault_moves (Device.rederive_moves (Device.clearFaults_moves h slot l) slot) slot

theorem Device.clearPrinter_moves (h : d.Moves F C e) (slot : Nat) : d.Moves F C (e.clearPrinter slot) :=
  Device.rederive_moves (Device.clearLatches_moves h slot) slot

theorem Device.closeCallout_moves (h : d.Moves F C e) (n : Nat) (c : Callout) :
    d.Moves F C (e.closeCallout n c) :=
  .ite (Device.clearPrinter_moves h _) (Device.freeCalloutRecord_moves (Device.clearPrinter_moves h _) n)

theorem Device.enterService_moves (hC : C) (h : d.Moves F C e) (slot : Nat) : d.Moves F C (e.enterService slot) :=
  Device.rederive_moves (Device.modPrinter_moves h slot _ (.inl hC)) slot

theorem Device.attend_moves (hC : C) (h : d.Moves F C e) (slot t : Nat) : d.Moves F C (e.attend slot t).1 := by
  unfold Device.attend
  split
  · exact h
  · split
    · exact Device.putCallout_moves h _ _
    · exact h
    · exact Device.enterService_moves hC (Device.putCallout_moves h _ _) _
    · exact Device.enterService_moves hC (Device.leavePending_moves h _) _

theorem Device.leaveService_moves (hC : C) (h : d.Moves F C e) (slot : Nat) : d.Moves F C (e.leaveService slot) :=
  Device.rederive_moves (Device.modPrinter_moves h slot _ (.inl hC)) slot

theorem Device.takeRemaining_moves (h : d.Moves F C e) (slot : Nat) (r : Bool) :
    d.Moves F C (e.takeRemaining slot r) := by
  unfold Device.takeRemaining
  split
  · exact Device.freeCalloutOf_moves h _
  · exact .ite ((Device.putCallout_moves h _ _).raise _ _) (Device.putCallout_moves h _ _)
  · exact Device.openOrPend_moves h _ _ _

theorem Device.endOfService_moves (hC : C) (h : d.Moves F C e) (slot : Nat) : d.Moves F C (e.endOfService slot) :=
  Device.leaveService_moves hC (Device.clearLatches_moves (Device.handServiceDue_moves
    (Device.modPrinter_moves h slot _ (.inl hC)) slot) slot) slot

theorem Device.serviceDone_moves (hC : C) (h : d.Moves F C e) (slot : Nat) : d.Moves F C (e.serviceDone slot).1 := by
  unfold Device.serviceDone
  split
  · exact h
  · split
    · exact h
    · exact Device.takeRemaining_moves (Device.endOfService_moves hC h slot) slot true

/-! ## Terminals -/

theorem Device.makeScreen_moves (h : d.Moves True C e) (i : Nat) (s : Screen) (f : Option FollowUp := none) :
    d.Moves True C (e.makeScreen i s f) := .ite (Device.modTerminal_moves h i _) h

theorem Device.setSession_moves (h : d.Moves True C e) (i : Nat) (s : Session) : d.Moves True C (e.setSession i s) :=
  Device.modTerminal_moves h i _

theorem Device.showListing_moves (h : d.Moves True C e) (i a : Nat) (t : Time) (r : Nat) :
    d.Moves True C (e.showListing i a t r) :=
  Device.makeScreen_moves (Device.setSession_moves h i _) i _

theorem Device.endWith_moves (h : d.Moves True C e) (i : Nat) (s : Screen) (f : Option FollowUp := none) :
    d.Moves True C (e.endWith i s f) := Device.makeScreen_moves (Device.modTerminal_moves h i _) i s f

theorem Device.endSessions_moves (h : d.Moves True C e) (test : Nat → Bool) (r : LockReason) :
    d.Moves True C (e.endSessions test r) :=
  h.foldl (fun _ i m => .ite (Device.endWith_moves m i _ _) m) _

theorem Device.pinFailure_moves (h : d.Moves True C e) (a : Nat) : d.Moves True C (e.pinFailure a).1 := by
  unfold Device.pinFailure
  dsimp only
  split
  · exact Device.modAccount_moves h a _
  · exact (Device.modAccount_moves h a _).raise _ _

theorem Device.checkPin_moves (h : d.Moves True C e) (a : Nat) (g : BitVec 32) : d.Moves True C (e.checkPin a g).1 := by
  unfold Device.checkPin
  split
  · exact h
  · split
    · exact h
    · split
      · exact h
      · split
        · exact Device.modAccount_moves h a _
        · exact Device.pinFailure_moves h a

theorem Device.openRole_moves (h : d.Moves True C e) (i a : Nat) (r : Role) : d.Moves True C (e.openRole i a r) := by
  unfold Device.openRole
  split
  · exact Device.showListing_moves h _ _ _ _
  · exact Device.makeScreen_moves (Device.setSession_moves h i _) i _

theorem Device.openByBadge_moves (h : d.Moves True C e) (i : Nat) (o : BadgeOutcome) :
    d.Moves True C (e.openByBadge i o) := by
  have ended := Device.modTerminal_moves h i Terminal.endSession
  unfold Device.openByBadge
  dsimp only
  split
  · exact Device.makeScreen_moves (Device.setSession_moves ended i _) i _
  · exact Device.openRole_moves ended i _ _
  · exact Device.openRole_moves ended i _ _
  · exact ended
  · exact ended
  · exact ended

theorem Device.sameAccountBadge_moves (h : d.Moves True C e) (i a : Nat) (o : BadgeOutcome) :
    d.Moves True C (e.sameAccountBadge i a o) := by
  unfold Device.sameAccountBadge
  split
  · exact Device.showListing_moves h _ _ _ _
  · exact Device.makeScreen_moves h i _
  · split
    · exact Device.makeScreen_moves h i _
    all_goals exact Device.openByBadge_moves h i _
  · exact Device.openByBadge_moves h i _

theorem Device.takeBadge_moves (h : d.Moves True C e) (i : Nat) (t : BitVec 64) : d.Moves True C (e.takeBadge i t) := by
  unfold Device.takeBadge
  split
  · exact Device.endWith_moves h i _ _
  · exact Device.endWith_moves h i _ _
  · exact Device.endWith_moves h i _ _
  all_goals exact .ite (Device.sameAccountBadge_moves h i _ _) (Device.openByBadge_moves h i _)

theorem Device.takePinOutcome_moves (h : d.Moves True C e) (i a : Nat) (o : PinOutcome) :
    d.Moves True C (e.takePinOutcome i a o) := by
  unfold Device.takePinOutcome
  split
  · exact Device.openRole_moves h _ _ _
  · exact Device.makeScreen_moves h i _
  · exact Device.endSessions_moves (Device.endWith_moves h i _ _) _ _
  · exact Device.endWith_moves h i _ _
  · exact Device.endWith_moves h i _ _

theorem Device.takePin_moves (h : d.Moves True C e) (i : Nat) (g : BitVec 32) : d.Moves True C (e.takePin i g) := by
  unfold Device.takePin
  split
  · exact Device.takePinOutcome_moves (Device.checkPin_moves h _ g) i _ _
  all_goals exact h

theorem Device.keyRelease_moves (h : d.Moves True C e) (i a p : Nat) (refs : List PageRef) (n : Nat) :
    d.Moves True C (e.keyRelease i a p refs n) := by
  unfold Device.keyRelease
  split
  · exact Device.makeScreen_moves h i _ _
  · exact Device.makeScreen_moves (Device.releaseRef_moves h _ _ _) i _ _

theorem Device.keyCancel_moves (h : d.Moves True C e) (i a p : Nat) (t : Time) (refs : List PageRef) (n : Nat) :
    d.Moves True C (e.keyCancel i a p t refs n) := by
  unfold Device.keyCancel
  split
  · exact Device.makeScreen_moves h i _ _
  · split
    · exact Device.makeScreen_moves h i _ _
    · exact Device.showListing_moves (Device.cancelRef_moves h _ _ _ ‹_›) _ _ _ _

theorem Device.keyInListing_moves (h : d.Moves True C e) (i a : Nat) (t : Time) (p : Nat) (refs : List PageRef)
    (k : Key) : d.Moves True C (e.keyInListing i a t p refs k) := by
  unfold Device.keyInListing
  split
  · exact .ite (Device.keyRelease_moves h _ _ _ _ _) h
  · exact Device.makeScreen_moves (Device.releaseWalk_moves h _ _) i _ _
  · exact .ite (Device.keyCancel_moves h _ _ _ _ _ _) h
  · exact Device.showListing_moves h _ _ _ _
  · exact Device.endWith_moves h i _
  all_goals exact h

theorem Device.showService_moves (h : d.Moves True C e) (i a : Nat) (t : Time) (o : ServiceOutcome) :
    d.Moves True C (e.showService i a t o) := Device.makeScreen_moves (Device.setSession_moves h i _) i _

theorem Device.keyInService_moves (h : d.Moves True C e) (i a : Nat) (t : Time) (k : Key)
    (hk : k = .attend ∨ k = .serviceDone → C) : d.Moves True C (e.keyInService i a t k) := by
  unfold Device.keyInService
  split
  · exact Device.showService_moves (Device.attend_moves (hk (.inl rfl)) h _ _) _ _ _ _
  · exact Device.showService_moves (Device.serviceDone_moves (hk (.inr rfl)) h _) _ _ _ _
  · exact Device.endWith_moves h i _
  all_goals exact h

theorem Device.takeKey_moves (h : d.Moves True C e) (i : Nat) (k : Key)
    (hk : k = .attend ∨ k = .serviceDone → C) : d.Moves True C (e.takeKey i k) := by
  unfold Device.takeKey
  split
  · exact h
  · split
    · exact Device.endWith_moves h i _
    all_goals exact h
  · exact Device.keyInListing_moves h _ _ _ _ _ _
  · exact Device.keyInService_moves h _ _ _ _ hk

theorem Device.takeEvent_moves (h : d.Moves True C e) (i : Nat) (v : Event)
    (hv : v = .key .attend ∨ v = .key .serviceDone → C) : d.Moves True C (e.takeEvent i v) := by
  unfold Device.takeEvent
  split
  · exact Device.takeBadge_moves h i _
  · exact Device.takePin_moves h i _
  · exact Device.takeKey_moves h i _ fun k => hv (k.imp (congrArg _) (congrArg _))

theorem Device.acceptEvent_moves (h : d.Moves True C e) (i : Nat) (t : Bool) (v : Event)
    (hv : v = .key .attend ∨ v = .key .serviceDone → C) : d.Moves True C (e.acceptEvent i t v) :=
  .ite h (Device.takeEvent_moves (Device.modTerminal_moves h i _) i v hv)

theorem Device.enterPresent_moves (h : d.Moves True C e) (i : Nat) : d.Moves True C (e.enterPresent i) :=
  (Device.makeScreen_moves (Device.modTerminal_moves h i _) i _).raise _ _

theorem Device.badPoll_moves (h : d.Moves True C e) (i : Nat) : d.Moves True C (e.badPoll i) := by
  have pushed := Device.modTerminal_moves h i fun t => { t with window := pushOutcome false t.window }
  unfold Device.badPoll
  split
  · exact h
  · exact Device.modTerminal_moves h i _
  · exact .ite ((Device.modTerminal_moves pushed i _).raise _ _) pushed

theorem Device.goodPoll_moves (h : d.Moves True C e) (i : Nat) (a : Answer)
    (ha : ∀ t, a = .event t (.key .attend) ∨ a = .event t (.key .serviceDone) → C) : d.Moves True C (e.goodPoll i a) := by
  have delivered := Device.modTerminal_moves h i fun t =>
    { t.deliver e.uptime with window := pushOutcome true t.window }
  unfold Device.goodPoll
  split
  · unfold Device.answerAbsent
    split
    · exact Device.modTerminal_moves h i _
    · exact .ite (Device.enterPresent_moves h i) h
    all_goals exact h
  · unfold Device.answerJoining
    split
    · exact Device.enterPresent_moves h i
    all_goals exact Device.modTerminal_moves h i _
  · unfold Device.answerPresent
    dsimp only
    split
    · exact delivered
    · exact delivered
    · exact Device.modTerminal_moves (Device.modTerminal_moves delivered i _) i _
    · exact Device.acceptEvent_moves delivered i _ _ fun k => ha _ (k.imp (congrArg _) (congrArg _))

theorem Device.sendPoll_moves (h : d.Moves True C e) (line a : Nat) : d.Moves True C (e.sendPoll line a) :=
  Device.modLine_moves (Device.modTerminal_moves h _ _) line _

theorem Device.startCycle_moves (h : d.Moves True C e) (line : Nat) : d.Moves True C (e.startCycle line) := by
  unfold Device.startCycle
  split
  · exact Device.sendPoll_moves h _ _
  · exact Device.modLine_moves h line _

theorem Device.endCycle_moves (h : d.Moves True C e) (line : Nat) : d.Moves True C (e.endCycle line) :=
  .ite (Device.modLine_moves (Device.modLine_moves h line _) line _)
    (Device.startCycle_moves (Device.modLine_moves h line _) line)

theorem Device.advance_moves (h : d.Moves True C e) (line a : Nat) : d.Moves True C (e.advance line a) := by
  unfold Device.advance
  split
  · exact Device.sendPoll_moves h _ _
  · exact Device.endCycle_moves h line

theorem Device.endPoll_moves {f : Device → Nat → Device} (h : d.Moves True C e) (line : Nat)
    (hf : ∀ i, d.Moves True C (f e i)) : d.Moves True C (e.endPoll line f) := by
  unfold Device.endPoll
  split
  · exact Device.advance_moves (.ite (hf _) h) _ _
  · exact h
  · exact h

theorem Device.pollFails_moves (h : d.Moves True C e) (line : Nat) : d.Moves True C (e.pollFails line) :=
  Device.endPoll_moves h line fun i => Device.badPoll_moves h i

theorem Device.pollAnswered_moves (h : d.Moves True C e) (line : Nat) (a : Answer)
    (ha : ∀ t, a = .event t (.key .attend) ∨ a = .event t (.key .serviceDone) → C) :
    d.Moves True C (e.pollAnswered line a) :=
  Device.endPoll_moves h line fun i => Device.goodPoll_moves h i a ha

theorem Device.endPause_moves (h : d.Moves True C e) (line : Nat) : d.Moves True C (e.endPause line) :=
  .ite (Device.startCycle_moves h line) h

theorem Device.quietPauseEnd_moves (h : d.Moves True C e) (line : Nat) : d.Moves True C (e.quietPauseEnd line) := by
  unfold Device.quietPauseEnd
  split
  · exact .ite (Device.endPause_moves h line) h
  · exact h
  · exact h

theorem Device.recentlyLostExpiry_moves (h : d.Moves True C e) (i : Nat) :
    d.Moves True C (e.recentlyLostExpiry i) := .ite (Device.modTerminal_moves h i _) h

theorem Device.idleDeadline_moves (h : d.Moves True C e) (i : Nat) : d.Moves True C (e.idleDeadline i) :=
  .ite (Device.endWith_moves h i _) h

theorem Device.followScreen_moves (h : d.Moves True C e) (i : Nat) (k : FollowUp) :
    d.Moves True C (e.followScreen i k) := by
  unfold Device.followScreen
  split
  · exact Device.makeScreen_moves h i _
  · split
    · exact Device.showListing_moves h _ _ _ _
    all_goals exact Device.makeScreen_moves h i _

theorem Device.followUp_moves (h : d.Moves True C e) (i : Nat) : d.Moves True C (e.followUp i) := by
  unfold Device.followUp
  split
  · exact h
  · exact .ite (Device.followScreen_moves (Device.modTerminal_moves h i _) i _) h

theorem Device.resetTerminal_moves (h : d.Moves True C e) (i : Nat) : d.Moves True C (e.resetTerminal i) :=
  Device.modTerminal_moves h i _

theorem Device.wakeLine_moves (h : d.Moves True C e) (line : Nat) (b : Bool) : d.Moves True C (e.wakeLine line b) := by
  unfold Device.wakeLine
  split
  · exact Device.startCycle_moves h line
  · exact .ite (Device.startCycle_moves h line) h
  · exact h

/-! ## Accounts and attention requests -/

theorem Device.removeHeld_moves (h : d.Moves F C e) (test : Nat → Bool) : d.Moves F C (e.removeHeld test) :=
  h.foldl (fun _ _ m => Device.departListed_moves m _ _ _ _) _

theorem Device.endUnusable_moves (b : Device) (h : d.Moves True C e) :
    d.Moves True C (Device.endUnusable b e) :=
  Device.endSessions_moves h _ _

theorem Device.lockoutExpiry_moves (h : d.Moves F C e) (a : Nat) : d.Moves F C (e.lockoutExpiry a) :=
  .ite (Device.modAccount_moves h a _) h

theorem Device.adjustUsage_moves (h : d.Moves F C e) (a : Nat) (n : Int) : d.Moves F C (e.adjustUsage a n) :=
  Device.modTenant_moves (Device.modAccount_moves h _ _) _ _

theorem Device.acknowledge_moves (h : d.Moves F C e) (l : List AckItem) (s : Option (BitVec 32)) :
    d.Moves F C (e.acknowledge l s) := h.foldl (fun _ _ m => m.clear _ _) _

theorem Device.enableChanged_moves (o : Device) (h : d.Moves F C e) (f : Flag) :
    d.Moves F C (Device.enableChanged o e f) := by
  unfold Device.enableChanged
  split
  · exact Device.clearInstances_moves h f
  · exact Device.raiseCauses_moves h f
  all_goals exact h

end Sys2Proof.Machine
end

