-- ==== Sys2Proof/Laws/Starts.lean ====
section
/-! SUPPORT. What a start does to the device, in terms of `Device.Moves`: stages 3 to 7 move the runtime
records alone. -/

namespace Sys2Proof.Machine

variable {d e : Device}

/-! ## Stage 3 -/

theorem Device.removeInactive_moves (h : d.Moves True True e) : d.Moves True True e.removeInactive :=
  h.foldl (fun _ _ m => Device.departListed_moves (Device.returnReservation_moves m _) _ _ _ _) _

theorem Device.releaseFromLost_moves (h : d.Moves True True e) (n : Nat) : d.Moves True True (e.releaseFromLost n) := by
  unfold Device.releaseFromLost
  split
  · exact h
  · split
    · exact h
    · exact Device.toHeld_moves h _ _ _
    · exact Device.endFromAccumulators_moves h _ _ _ _

theorem Device.emptyLost_moves (h : d.Moves True True e) (l : List Nat) : d.Moves True True (e.emptyLost l) :=
  h.foldl (fun _ _ m => m.foldl (fun _ n k => Device.releaseFromLost_moves k n) _) _

theorem Device.retargetLost_moves (h : d.Moves True True e) (t : Nat × Ticket) : d.Moves True True (e.retargetLost t) := by
  unfold Device.retargetLost
  split
  · exact Device.departListed_moves h _ _ _ _
  · exact Device.putTicket_moves h _ _

theorem Device.reconcileTickets_moves (h : d.Moves True True e) (l : List Nat) : d.Moves True True (e.reconcileTickets l) :=
  (Device.emptyLost_moves (Device.removeInactive_moves h) l).foldl
    (fun _ t m => Device.retargetLost_moves m t) _

theorem Device.reconcileSlot_moves (old : Device) (h : d.Moves True True e) (slot : Nat) :
    d.Moves True True (Device.reconcileSlot old e slot) := by
  unfold Device.reconcileSlot
  split
  · exact Device.modPrinter_moves h slot _ (.inl trivial)
  · exact Device.modPrinter_moves h slot _ (.inl trivial)
  · exact Device.modPrinter_moves h slot _ (.inl trivial)
  · exact h

theorem Device.reconcilePrinters_moves (old : Device) (h : d.Moves True True e) :
    d.Moves True True (Device.reconcilePrinters old e) :=
  h.foldl (fun _ p m => Device.reconcileSlot_moves old m p) _

theorem Device.recomputeReserved_moves (h : d.Moves True True e) : d.Moves True True e.recomputeReserved :=
  (h.tenants _ (Table.mapAll_wf _ _ _)).foldl (fun _ _ m => Device.modTenant_moves m _ _) _

theorem Device.reconcileCallouts_moves (h : d.Moves True True e) (l : List Nat) :
    d.Moves True True (e.reconcileCallouts l) :=
  ((h.pendingList _).foldl (fun _ n m => Device.putCallout_moves m n none) _).foldl
    (fun _ _ m => Device.offerCallout_moves m) _

theorem Device.reconcileKind_moves (old : Device) (h : d.Moves True True e) (k : Nat) :
    d.Moves True True (Device.reconcileKind old e k) :=
  Device.modKind_moves (.ite h (h.foldl (fun _ _ m => Device.freeOrderRecord_moves m _) _)) k _

theorem Device.reconcile_moves (old : Device) (h : d.Moves True True e) : d.Moves True True (Device.reconcile old e) :=
  (Device.reconcileCallouts_moves (Device.recomputeReserved_moves
    (Device.reconcilePrinters_moves old (Device.reconcileTickets_moves h _))) _).foldl
    (fun _ k m => Device.reconcileKind_moves old m k) _

/-! ## Stages 4 and 5 -/

theorem Device.restartSlot_moves (h : d.Moves True True e) (slot : Nat) : d.Moves True True (e.restartSlot slot) :=
  .ite (Device.modPrinter_moves h slot _ (.inl trivial)) h

theorem Device.restartHoldoffs_moves (h : d.Moves True True e) (slot : Nat) : d.Moves True True (e.restartHoldoffs slot) :=
  Device.modPrinter_moves h slot _ (.inl trivial)

theorem Device.restartCompletions_moves (h : d.Moves True True e) : d.Moves True True e.restartCompletions :=
  h.tickets _ (Table.mapAll_wf _ _ _)

theorem Device.escalateAtStart_moves (h : d.Moves True True e) (n : Nat) : d.Moves True True (e.escalateAtStart n) := by
  unfold Device.escalateAtStart
  split
  · exact h
  · exact .ite ((Device.putCallout_moves h _ _).raise _ _) h

theorem Device.takePassed_moves (h : d.Moves True True e) : d.Moves True True e.takePassed :=
  (((h.foldl (fun _ n m => Device.ticketExpiry_moves m n) _).foldl
    (fun _ a m => Device.lockoutExpiry_moves m a) _).foldl
    (fun _ n m => Device.escalateAtStart_moves m n) _).foldl
    (fun _ n m => Device.overdueDeadline_moves m n) _

theorem Device.restartTimers_moves (h : d.Moves True True e) : d.Moves True True e.restartTimers := by
  have passed := Device.takePassed_moves (Device.restartCompletions_moves
    (h.foldl (fun _ p m => Device.restartHoldoffs_moves (Device.restartSlot_moves m p) p)
      (List.range Config.printers)))
  exact Device.freshRollover_moves (.ite (Device.takeRollover_moves passed) passed)

theorem Device.handDetectors_moves (h : d.Moves True True e) (slot : Nat) : d.Moves True True (e.handDetectors slot) :=
  Device.handLatchings_moves (Device.handSupplyEmpty_moves (Device.handConsumption_moves
    (Device.handServiceDue_moves (Device.hand_moves (Device.hand_moves (Device.hand_moves h _ _ _) _ _ _)
      _ _ _) _) _) _) _ _

theorem Device.deriveAtStart_moves (h : d.Moves True True e) (slot : Nat) : d.Moves True True (e.deriveAtStart slot) :=
  .ite h (Device.changeState_moves h slot _)

theorem Device.considerAll_moves (h : d.Moves True True e) : d.Moves True True e.considerAll :=
  h.foldl (fun _ p m => Device.consider_moves m p) _

theorem Device.forecastAtStart_moves (h : d.Moves True True e) : d.Moves True True e.forecastAtStart :=
  ((h.foldl (fun _ p m => .ite (Device.redays_moves m p) m) _).foldl
    (fun _ k m => .ite (Device.evaluate_moves m k) m) _).foldl
    (fun _ p m => .ite (Device.evaluateSupplyFlags_moves m p) m) _

theorem Device.deriveAll_moves (h : d.Moves True True e) : d.Moves True True e.deriveAll := by
  have handed : d.Moves True True ((List.range Config.printers).foldl Device.handDetectors e) :=
    h.foldl (fun _ p m => Device.handDetectors_moves m p) _
  have derived : d.Moves True True ((List.range Config.printers).foldl Device.deriveAtStart
      ((List.range Config.printers).foldl Device.handDetectors e)) :=
    handed.foldl (fun _ p m => Device.deriveAtStart_moves m p) _
  unfold Device.deriveAll
  exact Device.forecastAtStart_moves (Device.considerAll_moves derived)

/-! ## Stages 6 and 7 -/

theorem Device.restartAttention_moves (h : d.Moves True True e) (a b c : Bool) :
    d.Moves True True (e.restartAttention a b c) :=
  (Device.raiseIf_moves (Device.raiseIf_moves (Device.raiseIf_moves (Device.raiseIf_moves
    (h.attentionRestart.raise _ _) _ _) _ _) _ _) _ _).foldl
    (fun _ f m => Device.raiseCauses_moves m f) _

theorem Device.restartLines_moves (h : d.Moves True True e) : d.Moves True True e.restartLines :=
  ((h.terminals ⟨[]⟩ (fun _ => Table.empty_wf _) trivial).lines ⟨[]⟩ (fun _ => Table.empty_wf _) trivial).foldl
    (fun _ n m => Device.startCycle_moves m n) _

/-- The device after stages 3 to 6, before the start is recorded. -/
theorem Device.startFrom_moves (d : Device) (cause : StartCause) (loss battery : Bool) :
    ∃ e, d.loadSettings.Moves True True e ∧
      ({ e with start := ⟨cause, loss, !d.store.checksumGood⟩ } : Device).Moves True True
        (d.startFrom cause loss battery) :=
  ⟨_, Device.restartAttention_moves (Device.deriveAll_moves (Device.restartTimers_moves
    (Device.reconcile_moves d .refl))) _ _ _, Device.restartLines_moves .refl⟩

end Sys2Proof.Machine
end

