-- ==== Sys2Proof/Laws/Requests.lean ====
section
/-! SUPPORT. What a served request can do to the device, said once for each request: at most a new working
copy, which a running save forbids, and then moves of the runtime records. -/

namespace Sys2Proof.Machine

/-- A request writes at most the working copy, in canonical form, not while a save runs and never the guard
record, and then moves runtime records. -/
def Device.Serves (F C : Prop) (d e : Device) : Prop :=
  ∃ w : Settings, (d.saving = true → w = d.work) ∧ (d.work.canonical → w.canonical)
    ∧ w.guard = d.work.guard ∧ ({ d with work := w } : Device).Moves F C e

variable {F C : Prop} {d e : Device}

theorem Device.Serves.of_moves (h : d.Moves F C e) : d.Serves F C e :=
  ⟨d.work, fun _ => rfl, id, rfl, h⟩

theorem Device.Serves.refl (d : Device) : d.Serves F C d := .of_moves .refl

theorem Device.Serves.setting (hs : ¬ d.saving = true) {w : Settings}
    (hw : (d.work.canonical → w.canonical) ∧ w.guard = d.work.guard)
    (h : ({ d with work := w } : Device).Moves F C e) :
    d.Serves F C e := ⟨w, fun k => absurd k hs, hw.1, hw.2, h⟩

theorem Device.Serves.mono {F' C' : Prop} (hf : F → F') (hc : C → C') (h : d.Serves F C e) :
    d.Serves F' C' e := by
  obtain ⟨w, a, b, g, k⟩ := h
  exact ⟨w, a, b, g, k.mono hf hc⟩

theorem answer_serves (h : d.Serves F C e) (r : List Byte) : d.Serves F C (answer e r).1 := h

theorem withFields_serves {ws : List Nat} {f : List Nat → Device → Device × List Byte}
    (h : ∀ vs, d.Serves F C (f vs d).1) (body : List Byte) : d.Serves F C (withFields ws f body d).1 := by
  unfold withFields
  split
  · exact .refl d
  · exact h _

theorem unlessSaving_serves {r : Device × List Byte} (h : ¬ d.saving = true → d.Serves F C r.1) :
    d.Serves F C (unlessSaving d r).1 := by
  unfold unlessSaving
  split
  · exact .refl d
  · exact h ‹_›

/-- A request that answers with the device as it is. -/
theorem withFields_same {ws : List Nat} {f : List Nat → Device → Device × List Byte}
    (h : ∀ vs, (f vs d).1 = d) (body : List Byte) : (withFields ws f body d).1 = d := by
  unfold withFields
  split
  · rfl
  · exact h _

/-! ## Requests that read -/

theorem identify_same (l : Link) (body : List Byte) (d : Device) : (identify l body d).1 = d :=
  withFields_same (fun _ => rfl) body

theorem unknownKindReply_same (body : List Byte) (d : Device) : (unknownKindReply body d).1 = d := rfl

theorem readAttention_same (body : List Byte) (d : Device) : (readAttention body d).1 = d := by
  unfold readAttention
  split
  · rfl
  · split
    · exact withFields_same (fun _ => rfl) _
    · refine withFields_same (fun vs => ?_) _
      split
      · split <;> rfl
      · rfl
    · exact withFields_same (fun _ => rfl) _
    · rfl

theorem readTime_same (body : List Byte) (d : Device) : (readTime body d).1 = d :=
  withFields_same (fun _ => rfl) body

theorem readPrinter_same (body : List Byte) (d : Device) : (readPrinter body d).1 = d := by
  refine withFields_same (fun vs => ?_) body
  dsimp only
  split
  · rfl
  · split <;> rfl

theorem readFaults_same (body : List Byte) (d : Device) : (readFaults body d).1 = d := by
  unfold readFaults
  split
  · rfl
  · split
    · refine withFields_same (fun vs => ?_) _
      unfold readFaultRecords
      split
      · rfl
      · split <;> rfl
    · exact withFields_same (fun _ => rfl) _
    · exact withFields_same (fun _ => rfl) _
    · rfl

theorem readCallouts_same (body : List Byte) (d : Device) : (readCallouts body d).1 = d := by
  unfold readCallouts
  split
  · rfl
  · split
    · exact withFields_same (fun _ => rfl) _
    · refine withFields_same (fun vs => ?_) _
      unfold readPending
      split <;> rfl
    · refine withFields_same (fun vs => ?_) _
      unfold readCalloutOf
      split <;> rfl
    · rfl

theorem readAccount_same (body : List Byte) (d : Device) : (readAccount body d).1 = d := by
  refine withFields_same (fun vs => ?_) body
  dsimp only
  split <;> rfl

theorem readTenant_same (body : List Byte) (d : Device) : (readTenant body d).1 = d := by
  refine withFields_same (fun vs => ?_) body
  dsimp only
  split <;> rfl

theorem quote_same (body : List Byte) (d : Device) : (quote body d).1 = d := by
  refine withFields_same (fun vs => ?_) body
  split
  · split
    · split <;> rfl
    · rfl
  · rfl

theorem readTerminals_same (body : List Byte) (d : Device) : (readTerminals body d).1 = d := by
  unfold readTerminals
  split
  · rfl
  · split
    · refine withFields_same (fun vs => ?_) _
      unfold readLine
      split <;> rfl
    · refine withFields_same (fun vs => ?_) _
      unfold readTerminal
      split <;> rfl
    · rfl

theorem readSupplies_same (body : List Byte) (d : Device) : (readSupplies body d).1 = d := by
  unfold readSupplies
  split
  · rfl
  · split
    · refine withFields_same (fun vs => ?_) _
      unfold readSuppliesOf
      split
      · rfl
      · split <;> rfl
    · exact withFields_same (fun _ => rfl) _
    · exact withFields_same (fun _ => rfl) _
    · rfl

theorem readStock_same (body : List Byte) (d : Device) : (readStock body d).1 = d := by
  unfold readStock
  split
  · rfl
  · split
    · refine withFields_same (fun vs => ?_) _
      unfold readKind
      split <;> rfl
    · exact withFields_same (fun _ => rfl) _
    · rfl

theorem readOrders_same (body : List Byte) (d : Device) : (readOrders body d).1 = d :=
  withFields_same (fun _ => rfl) body

/-! ## Requests that read and empty a list -/

theorem readClass_serves (body : List Byte) (d : Device) : d.Serves F C (readClass body d).1 := by
  unfold readClass
  split
  · exact .refl d
  · split
    · refine withFields_serves (fun vs => ?_) _
      unfold readClassRates
      split <;> exact .refl d
    · exact withFields_serves (fun _ => .of_moves (Device.Moves.refl.exhaustionsRead)) _
    · exact .refl d

theorem readTickets_serves (body : List Byte) (d : Device) : d.Serves F C (readTickets body d).1 := by
  unfold readTickets
  split
  · exact .refl d
  · split
    · refine withFields_serves (fun vs => ?_) _
      unfold readTicketJob
      split
      · exact .refl d
      · split <;> exact .refl d
    · refine withFields_serves (fun vs => ?_) _
      unfold readTicketAccount
      split <;> exact .refl d
    · refine withFields_serves (fun vs => ?_) _
      unfold readTicketPrinter
      split <;> exact .refl d
    · exact withFields_serves (fun _ => .refl d) _
    · exact withFields_serves (fun _ => .refl d) _
    · exact withFields_serves (fun _ => .of_moves (Device.Moves.refl.removalsRead)) _
    · exact .refl d

/-! ## Requests that move runtime records -/

theorem ackAttention_serves (body : List Byte) (d : Device) : d.Serves F C (ackAttention body d).1 := by
  unfold ackAttention
  split
  · exact .refl d
  · split
    · refine .of_moves ?_
      unfold ackTaken
      split <;> exact Device.acknowledge_moves .refl _ _
    · exact .refl d

theorem retirePrinter_serves (body : List Byte) (d : Device) : d.Serves F True (retirePrinter body d).1 := by
  refine withFields_serves (fun vs => ?_) body
  dsimp only
  split
  · exact .refl d
  · split
    · exact .refl d
    · split
      · exact .refl d
      · split
        · exact .refl d
        · exact .of_moves (Device.retirePrinter_moves .refl _)

theorem printerReport_serves (body : List Byte) (d : Device) : d.Serves F True (printerReport body d).1 := by
  unfold printerReport
  split
  · exact .refl d
  · split
    · exact .refl d
    · split
      · exact .refl d
      · split
        · exact .refl d
        · split
          · exact .refl d
          · exact answer_serves (.of_moves (Device.takeReport_moves .refl _)) _

theorem clearFault_serves (body : List Byte) (d : Device) : d.Serves F C (clearFault body d).1 := by
  refine withFields_serves (fun vs => ?_) body
  dsimp only
  split
  · exact .refl d
  · split
    · exact .refl d
    · split
      · exact .refl d
      · split
        · exact .refl d
        · exact .of_moves (Device.takeClearFault_moves .refl _ _)

theorem dispatchCallout_serves (body : List Byte) (d : Device) :
    d.Serves F C (dispatchCallout body d).1 := by
  refine withFields_serves (fun vs => ?_) body
  split
  · exact .refl d
  · split
    · exact .of_moves (Device.putCallout_moves .refl _ _)
    · exact .refl d
    · exact .refl d

theorem closeCallout_serves (body : List Byte) (d : Device) : d.Serves F C (closeCallout body d).1 := by
  refine withFields_serves (fun vs => ?_) body
  split
  · exact .refl d
  · exact .of_moves (Device.closeCallout_moves .refl _ _)

theorem endService_serves (body : List Byte) (d : Device) : d.Serves F True (endService body d).1 := by
  refine withFields_serves (fun vs => ?_) body
  dsimp only
  split
  · exact .refl d
  · split
    · exact .refl d
    · split
      · exact .refl d
      · exact .of_moves (Device.takeRemaining_moves (Device.leaveService_moves trivial .refl _) _ _)

theorem unlockAccount_serves (body : List Byte) (d : Device) : d.Serves F C (unlockAccount body d).1 := by
  refine withFields_serves (fun vs => ?_) body
  split
  · exact .refl d
  · exact .of_moves (Device.modAccount_moves .refl _ _)

theorem adjustUsage_serves (body : List Byte) (d : Device) : d.Serves F C (adjustUsage body d).1 := by
  refine withFields_serves (fun vs => ?_) body
  dsimp only
  split
  · exact .refl d
  · exact .of_moves (Device.adjustUsage_moves .refl _ _)

theorem submitJob_serves (body : List Byte) (d : Device) : d.Serves F C (submitJob body d).1 := by
  unfold submitJob
  split
  · exact .refl d
  · split
    · exact .refl d
    · split
      · exact .refl d
      · unfold submitChecked
        repeat' split
        all_goals first | exact .refl d | exact .of_moves (Device.submit_moves .refl _ _)

theorem cancelJob_serves (body : List Byte) (d : Device) : d.Serves F C (cancelJob body d).1 := by
  refine withFields_serves (fun vs => ?_) body
  split
  · exact .refl d
  · split
    · exact .refl d
    · split
      · exact .refl d
      · exact .of_moves (Device.cancelTicket_moves .refl _ _)

theorem takeGrantsRequest_serves (body : List Byte) (d : Device) :
    d.Serves F C (takeGrantsRequest body d).1 := by
  refine withFields_serves (fun vs => ?_) body
  dsimp only
  split
  · exact .refl d
  · exact .of_moves (Device.takeGrants_moves .refl _)

theorem jobDone_serves (body : List Byte) (d : Device) : d.Serves F C (jobDone body d).1 := by
  refine withFields_serves (fun vs => ?_) body
  split
  · split
    · exact .refl d
    · split
      · exact .refl d
      · split
        · exact .of_moves (Device.completeJob_moves .refl _ _ _ _ _)
        · exact .refl d
        · exact .refl d
  · exact .refl d

theorem withOrder_serves {f : Order → Device × List Byte} (hf : ∀ o, d.Serves F C (f o).1) (n serial : Nat) :
    d.Serves F C (withOrder d n serial f).1 := by
  unfold withOrder
  split
  · split
    · split
      · exact hf _
      · exact .refl d
    · exact .refl d
  · exact .refl d

theorem adjustStock_serves (body : List Byte) (d : Device) : d.Serves F C (adjustStock body d).1 := by
  refine withFields_serves (fun vs => ?_) body
  split
  · split
    · exact .refl d
    · split
      · exact .refl d
      · exact .of_moves (Device.evaluate_moves
          (Device.clearHold_moves (Device.setOnHand_moves .refl _ _) _) _)
  · exact .refl d

theorem approveOrder_serves (body : List Byte) (d : Device) : d.Serves F C (approveOrder body d).1 := by
  refine withFields_serves (fun vs => ?_) body
  split
  · split
    · exact .refl d
    · split
      · exact .refl d
      · refine withOrder_serves (fun o => ?_) _ _
        split
        · exact .of_moves (Device.approve_moves .refl _ _ _)
        · exact .refl d
        · exact .refl d
  · exact .refl d

theorem declineOrder_serves (body : List Byte) (d : Device) : d.Serves F C (declineOrder body d).1 := by
  refine withFields_serves (fun vs => ?_) body
  split
  · refine withOrder_serves (fun o => ?_) _ _
    split
    · exact answer_serves (.of_moves (Device.decline_moves .refl _ _)) _
    · exact .refl d
    · exact .refl d
  · exact .refl d

theorem cancelOrder_serves (body : List Byte) (d : Device) : d.Serves F C (cancelOrder body d).1 := by
  refine withFields_serves (fun vs => ?_) body
  split
  · refine withOrder_serves (fun o => ?_) _ _
    split
    · exact .refl d
    all_goals exact answer_serves (.of_moves (Device.offerOrders_moves
      (Device.evaluate_moves (Device.freeOrderRecord_moves .refl _) _))) _
  · exact .refl d

theorem receiveDelivery_serves (body : List Byte) (d : Device) :
    d.Serves F C (receiveDelivery body d).1 := by
  refine withFields_serves (fun vs => ?_) body
  split
  · split
    · exact .refl d
    · refine withOrder_serves (fun o => ?_) _ _
      split
      · exact .refl d
      all_goals exact answer_serves (.of_moves (Device.deliver_moves .refl _ _ _ _)) _
  · exact .refl d

/-! ## Writes of the working copy keep its canonical form -/

theorem Settings.canonical_printers {w : Settings} (t : Table PrinterSettings)
    (h : w.printers.wf {} = true → t.wf {} = true) (hw : w.canonical) :
    ({ w with printers := t } : Settings).canonical :=
  ⟨h hw.1, hw.2⟩

theorem Settings.canonical_conditionMap {w : Settings} (t : Table (Option MapEntry))
    (h : w.conditionMap.wf none = true → t.wf none = true) (hw : w.canonical) :
    ({ w with conditionMap := t } : Settings).canonical :=
  ⟨hw.1, h hw.2.1, hw.2.2⟩

theorem Settings.canonical_tenants {w : Settings} (t : Table TenantSettings)
    (h : w.tenants.wf {} = true → t.wf {} = true) (hw : w.canonical) :
    ({ w with tenants := t } : Settings).canonical :=
  ⟨hw.1, hw.2.1, h hw.2.2.1, hw.2.2.2⟩

theorem Settings.canonical_accounts {w : Settings} (t : Table AccountSettings)
    (h : w.accounts.wf {} = true → t.wf {} = true) (hw : w.canonical) :
    ({ w with accounts := t } : Settings).canonical :=
  ⟨hw.1, hw.2.1, hw.2.2.1, h hw.2.2.2.1, hw.2.2.2.2⟩

theorem Settings.canonical_credentials {w : Settings} (t : Table Credentials)
    (h : w.credentials.wf {} = true → t.wf {} = true) (hw : w.canonical) :
    ({ w with credentials := t } : Settings).canonical :=
  ⟨hw.1, hw.2.1, hw.2.2.1, hw.2.2.2.1, h hw.2.2.2.2.1, hw.2.2.2.2.2⟩

theorem Settings.canonical_rates {w : Settings} (t : Table Rates)
    (h : w.rates.wf {} = true → t.wf {} = true) (hw : w.canonical) :
    ({ w with rates := t } : Settings).canonical :=
  ⟨hw.1, hw.2.1, hw.2.2.1, hw.2.2.2.1, hw.2.2.2.2.1, h hw.2.2.2.2.2.1, hw.2.2.2.2.2.2⟩

theorem Settings.canonical_terminals {w : Settings} (t : Table TerminalSettings)
    (h : w.terminals.wf {} = true → t.wf {} = true) (hw : w.canonical) :
    ({ w with terminals := t } : Settings).canonical :=
  ⟨hw.1, hw.2.1, hw.2.2.1, hw.2.2.2.1, hw.2.2.2.2.1, hw.2.2.2.2.2.1, h hw.2.2.2.2.2.2.1,
    hw.2.2.2.2.2.2.2⟩

theorem Settings.canonical_lines {w : Settings} (t : Table LineSettings)
    (h : w.lines.wf {} = true → t.wf {} = true) (hw : w.canonical) :
    ({ w with lines := t } : Settings).canonical :=
  ⟨hw.1, hw.2.1, hw.2.2.1, hw.2.2.2.1, hw.2.2.2.2.1, hw.2.2.2.2.2.1, hw.2.2.2.2.2.2.1,
    h hw.2.2.2.2.2.2.2.1, hw.2.2.2.2.2.2.2.2⟩

theorem Settings.canonical_kinds {w : Settings} (t : Table KindSettings)
    (h : w.kinds.wf {} = true → t.wf {} = true) (hw : w.canonical) :
    ({ w with kinds := t } : Settings).canonical :=
  ⟨hw.1, hw.2.1, hw.2.2.1, hw.2.2.2.1, hw.2.2.2.2.1, hw.2.2.2.2.2.1, hw.2.2.2.2.2.2.1,
    hw.2.2.2.2.2.2.2.1, h hw.2.2.2.2.2.2.2.2.1, hw.2.2.2.2.2.2.2.2.2⟩

theorem enableTable_wf (vs : List Bool) : (enableTable vs).wf true = true := by
  have key : ∀ (l : List Nat) (t : Table Bool), t.wf true = true →
      (l.foldl (fun t n => t.put true n (vs.getD n true)) t).wf true = true := by
    intro l
    induction l with
    | nil => exact fun _ h => h
    | cons n rest ih => exact fun t h => ih _ (Table.put_wf _ _ _ _ h)
  exact key _ _ (Table.empty_wf _)

theorem Settings.canonical_enables {w : Settings} (vs : List Nat) {e : Enables}
    (he : enablesOf vs = some e) (hw : w.canonical) : ({ w with enables := e } : Settings).canonical := by
  unfold enablesOf at he
  split at he
  · cases he
    exact ⟨hw.1, hw.2.1, hw.2.2.1, hw.2.2.2.1, hw.2.2.2.2.1, hw.2.2.2.2.2.1, hw.2.2.2.2.2.2.1,
      hw.2.2.2.2.2.2.2.1, hw.2.2.2.2.2.2.2.2.1, enableTable_wf _, enableTable_wf _⟩
  · cases he

/-! ## Setting requests -/

theorem setAttentionEnables_serves (body : List Byte) (d : Device) :
    d.Serves F C (setAttentionEnables body d).1 := by
  refine withFields_serves (fun vs => ?_) body
  split
  · exact .refl d
  · rename_i e he
    exact unlessSaving_serves fun hs => .setting (w := { d.work with enables := e }) hs
      ⟨Settings.canonical_enables vs he, rfl⟩
      (Device.Moves.refl.foldl (fun _ f m => Device.enableChanged_moves d m f) _)

theorem setPrinter_serves (body : List Byte) (d : Device) : d.Serves F True (setPrinter body d).1 := by
  unfold setPrinter
  split
  · exact .refl d
  · split
    · exact .refl d
    · rename_i slot s _
      refine unlessSaving_serves fun hs => ?_
      unfold setPrinterTaken
      split
      · exact .setting hs ⟨Settings.canonical_printers _ (Table.put_wf _ _ _ _), rfl⟩ .refl
      · exact .setting hs ⟨Settings.canonical_printers _ (Table.put_wf _ _ _ _), rfl⟩ (Device.rederive_moves (Device.evaluateMoved_moves d
          (Device.modPrinter_moves .refl slot _ (.inl trivial))) slot)
      · show d.Serves F True (d.changePrinter slot s)
        unfold Device.changePrinter
        dsimp only
        split
        · exact .refl d
        · exact .setting hs ⟨Settings.canonical_printers _ (Table.put_wf _ _ _ _), rfl⟩ (Device.finishEvent_moves d (Device.evaluateMoved_moves d
            (Device.handChanges_moves (Device.modPrinter_moves .refl slot _ (.inl trivial)) slot _ _)) slot)
      · split
        · exact .setting hs ⟨Settings.canonical_printers _ (Table.put_wf _ _ _ _), rfl⟩ (Device.rederive_moves (Device.evaluateMoved_moves d
            (Device.modPrinter_moves .refl slot _ (.inl trivial))) slot)
        · exact .refl d

theorem setConditionMap_serves (body : List Byte) (d : Device) :
    d.Serves F C (setConditionMap body d).1 := by
  refine withFields_serves (fun vs => ?_) body
  split
  · split
    · exact .refl d
    · split
      · exact unlessSaving_serves fun hs => .setting hs ⟨Settings.canonical_conditionMap _ (Table.put_wf _ _ _ _), rfl⟩ .refl
      · exact unlessSaving_serves fun hs => .setting hs ⟨Settings.canonical_conditionMap _ (Table.put_wf _ _ _ _), rfl⟩ .refl
      · exact .refl d
  · exact .refl d

theorem Device.putPolicy_serves (hs : ¬ d.saving = true) (c : FaultClass) (p : Policy) :
    d.Serves F C (d.putPolicy c p) :=
  .setting (w := (d.putPolicy c p).work) hs ⟨id, rfl⟩ .refl

theorem setFaultPolicy_serves (body : List Byte) (d : Device) :
    d.Serves F C (setFaultPolicy body d).1 := by
  refine withFields_serves (fun vs => ?_) body
  split
  · split
    · split
      · refine unlessSaving_serves fun hs => ?_
        exact Device.putPolicy_serves hs _ _
      · exact .refl d
    · exact .refl d
  · exact .refl d

theorem setTenant_serves (body : List Byte) (d : Device) : d.Serves True C (setTenant body d).1 := by
  refine withFields_serves (fun vs => ?_) body
  split
  · split
    · split
      · refine unlessSaving_serves fun hs => ?_
        unfold setTenantTaken
        split
        · exact .refl d
        · show d.Serves True C (d.changeTenant _ _)
          unfold Device.changeTenant
          split
          · exact .setting hs ⟨Settings.canonical_tenants _ (Table.put_wf _ _ _ _), rfl⟩ (Device.endUnusable_moves d (Device.removeHeld_moves .refl _))
          · exact .setting hs ⟨Settings.canonical_tenants _ (Table.put_wf _ _ _ _), rfl⟩ .refl
      · exact .refl d
    · exact .refl d
  · exact .refl d

theorem Device.changeAccount_serves (hs : ¬ d.saving = true) (n : Nat) (s : AccountSettings) :
    d.Serves True C (d.changeAccount n s) := by
  refine .setting (w := (d.putAccountSettings n s).work) hs
    ⟨Settings.canonical_accounts _ (Table.put_wf _ _ n s), rfl⟩ ?_
  have removed : (d.putAccountSettings n s).Moves True C (if d.deactivatesAccount n s then
      (d.putAccountSettings n s).removeHeld (· = n) else d.putAccountSettings n s) :=
    .ite (Device.removeHeld_moves .refl _) .refl
  exact Device.endUnusable_moves d removed

theorem setAccount_serves (body : List Byte) (d : Device) : d.Serves True C (setAccount body d).1 := by
  refine withFields_serves (fun vs => ?_) body
  split
  · split
    · split
      · refine unlessSaving_serves fun hs => ?_
        unfold setAccountTaken
        split
        · exact .refl d
        · split
          · exact .refl d
          · exact answer_serves (Device.changeAccount_serves hs _ _) _
      · exact .refl d
    · exact .refl d
  · exact .refl d

theorem setEntry_serves (e : CredentialEntry) (n v : Nat) (d : Device) :
    d.Serves F C (setEntry e n v d).1 := by
  unfold setEntry
  split
  · exact .refl d
  · split
    · exact .refl d
    · refine unlessSaving_serves fun hs => ?_
      split
      · exact .refl d
      · unfold Device.writeCredential
        split
        · exact .refl d
        · split
          · exact .refl d
          · exact .setting hs ⟨Settings.canonical_credentials _ (Table.put_wf _ _ _ _), rfl⟩ .refl

theorem setCredential_serves (body : List Byte) (d : Device) : d.Serves F C (setCredential body d).1 := by
  unfold setCredential
  split
  · split
    all_goals first
      | exact withFields_serves (fun vs => setEntry_serves _ _ _ _) _
      | exact .refl d
  · exact .refl d

theorem eraseCredential_serves (body : List Byte) (d : Device) :
    d.Serves F C (eraseCredential body d).1 := by
  refine withFields_serves (fun vs => ?_) body
  dsimp only
  split
  · exact .refl d
  · split
    · exact .refl d
    · refine unlessSaving_serves fun hs => ?_
      split
      · exact .refl d
      · exact .setting hs ⟨Settings.canonical_credentials _ (Table.put_wf _ _ _ _), rfl⟩ .refl

theorem setClass_serves (body : List Byte) (d : Device) : d.Serves F C (setClass body d).1 := by
  refine withFields_serves (fun vs => ?_) body
  split
  · split
    · exact unlessSaving_serves fun hs => .setting hs ⟨Settings.canonical_rates _ (Table.put_wf _ _ _ _), rfl⟩ .refl
    · exact .refl d
  · exact .refl d

theorem Device.changeJobLimits_serves (hs : ¬ d.saving = true) (a b : Nat) :
    d.Serves F C (d.changeJobLimits a b) := by
  refine .setting (w := { d.work with completionMinutes := a, stallTime := b }) hs ⟨id, rfl⟩ ?_
  unfold Device.changeJobLimits
  dsimp only
  split
  · exact .refl
  · exact Device.Moves.refl.foldl (fun _ p m => Device.checkStall_moves m p) _

theorem setJobLimits_serves (body : List Byte) (d : Device) : d.Serves F C (setJobLimits body d).1 := by
  refine withFields_serves (fun vs => ?_) body
  split
  · split
    · exact unlessSaving_serves fun hs => answer_serves (Device.changeJobLimits_serves hs _ _) _
    · exact .refl d
  · exact .refl d

theorem setTerminal_serves (body : List Byte) (d : Device) : d.Serves True C (setTerminal body d).1 := by
  refine withFields_serves (fun vs => ?_) body
  split
  · split
    · split
      · refine unlessSaving_serves fun hs => ?_
        show d.Serves True C (d.changeTerminal _ _ _)
        unfold Device.changeTerminal
        dsimp only
        split
        · exact .setting hs ⟨Settings.canonical_terminals _ (Table.put_wf _ _ _ _), rfl⟩ (Device.wakeLine_moves (Device.resetTerminal_moves .refl _) _ _)
        · exact .setting hs ⟨Settings.canonical_terminals _ (Table.put_wf _ _ _ _), rfl⟩ (Device.resetTerminal_moves .refl _)
        · split
          · exact .setting hs ⟨Settings.canonical_terminals _ (Table.put_wf _ _ _ _), rfl⟩ (Device.resetTerminal_moves .refl _)
          · exact .setting hs ⟨Settings.canonical_terminals _ (Table.put_wf _ _ _ _), rfl⟩ .refl
        · exact .setting hs ⟨Settings.canonical_terminals _ (Table.put_wf _ _ _ _), rfl⟩ .refl
      · exact .refl d
    · exact .refl d
  · exact .refl d

theorem Device.changeLine_serves (hs : ¬ d.saving = true) (n : Nat) (s : LineSettings) :
    d.Serves True C (d.changeLine n s) :=
  .setting (w := { d.work with lines := d.work.lines.put {} n s }) hs
    ⟨Settings.canonical_lines _ (Table.put_wf _ _ n s), rfl⟩
    (.ite .refl (Device.endPause_moves .refl _))

theorem setLine_serves (body : List Byte) (d : Device) : d.Serves True C (setLine body d).1 := by
  refine withFields_serves (fun vs => ?_) body
  split
  · split
    · refine unlessSaving_serves fun hs => ?_
      show d.Serves True C (d.changeLine _ _)
      exact Device.changeLine_serves hs _ _
    · exact .refl d
  · exact .refl d

theorem Device.changeForecast_moves (d : Device) (s : ForecastSettings) :
    (d.putForecastSettings s).Moves F C (d.changeForecast s) := by
  have lows : (d.putForecastSettings s).Moves F C
      (if d.work.forecast.lowWarning = s.lowWarning then _ else _) :=
    .ite .refl (Device.Moves.refl.foldl (fun _ p m => Device.evaluateSupplyFlags_moves m p) d.configuredSlots)
  have floors := lows.foldl (fun _ p m => Device.applyFloors_moves d.work.forecast s m p) d.configuredSlots
  exact .ite floors (Device.freshRollover_moves floors)

theorem Device.changeForecast_serves (hs : ¬ d.saving = true) (s : ForecastSettings) :
    d.Serves F C (d.changeForecast s) :=
  .setting (w := (d.putForecastSettings s).work) hs ⟨id, rfl⟩ (Device.changeForecast_moves d s)

theorem setForecast_serves (body : List Byte) (d : Device) : d.Serves F C (setForecast body d).1 := by
  refine withFields_serves (fun vs => ?_) body
  split
  · split
    · refine unlessSaving_serves fun hs => ?_
      exact Device.changeForecast_serves hs _
    · exact .refl d
  · exact .refl d

theorem Device.changeKind_serves (hs : ¬ d.saving = true) (k : Nat) (s : KindSettings) :
    d.Serves F C (d.changeKind k s) := by
  unfold Device.changeKind
  split
  · exact .refl d
  · exact .setting hs ⟨Settings.canonical_kinds _ (Table.put_wf _ _ _ _), rfl⟩ (Device.evaluate_moves (Device.modKind_moves .refl _ _) _)

theorem setStockKind_serves (body : List Byte) (d : Device) : d.Serves F C (setStockKind body d).1 := by
  refine withFields_serves (fun vs => ?_) body
  split
  · split
    · exact .refl d
    · dsimp only
      split
      · refine unlessSaving_serves fun hs => ?_
        split
        · exact .refl d
        · exact Device.changeKind_serves hs _ _
      · exact .refl d
  · exact .refl d

end Sys2Proof.Machine
end

