-- ==== Sys2Proof/Laws/Invariants.lean ====
section
/-! SUPPORT. What moves of the runtime records keep: the ground, the bounds of the lists, the canonical form
of the tables, and, where they are not allowed to touch them, the floor and the counters. -/

namespace Sys2Proof.Machine

variable {F C : Prop} {d e : Device}

theorem Device.raise_eq (d : Device) (f : Flag) (i : Nat) :
    d.raise f i = { d with attention := (d.raise f i).attention } := by
  unfold Device.raise
  split <;> rfl

theorem Device.addRemoval_eq (d : Device) (r : Removal) :
    d.addRemoval r = { d with
      removals := (d.addRemoval r).removals, removalsDropped := (d.addRemoval r).removalsDropped } := by
  unfold Device.addRemoval
  split <;> rfl

theorem Device.addExhaustion_eq (d : Device) (x : Exhaustion) :
    d.addExhaustion x = { d with
      exhaustions := (d.addExhaustion x).exhaustions
      exhaustionsDropped := (d.addExhaustion x).exhaustionsDropped } := by
  unfold Device.addExhaustion
  split <;> rfl

theorem satAdd_le (m a b : Nat) : satAdd m a b ≤ m := Nat.min_le_left _ _

theorem Device.Moves.ground (h : d.Moves F C e) : e.ground = d.ground := by
  induction h with
  | refl => rfl
  | raise _ f i ih => rw [Device.raise_eq]; exact ih
  | exhaust _ x ih => rw [Device.addExhaustion_eq]; exact ih
  | removal _ r ih => rw [Device.addRemoval_eq]; exact ih
  | _ => assumption

theorem Device.Moves.floor (h : d.Moves F C e) (hf : ¬ F) :
    e.terminals = d.terminals ∧ e.lines = d.lines := by
  induction h with
  | refl => exact ⟨rfl, rfl⟩
  | raise _ f i ih => rw [Device.raise_eq]; exact ih
  | exhaust _ x ih => rw [Device.addExhaustion_eq]; exact ih
  | removal _ r ih => rw [Device.addRemoval_eq]; exact ih
  | terminals _ _ _ k _ => exact absurd k hf
  | lines _ _ _ k _ => exact absurd k hf
  | _ => assumption

theorem Device.Moves.counters (h : d.Moves F C e) (hc : ¬ C) (p : Nat) :
    (e.printer p).counters = (d.printer p).counters := by
  induction h with
  | refl => rfl
  | raise _ f i ih => rw [Device.raise_eq]; exact ih
  | exhaust _ x ih => rw [Device.addExhaustion_eq]; exact ih
  | removal _ r ih => rw [Device.addRemoval_eq]; exact ih
  | fleet _ t _ k ih => exact (k.resolve_left hc p).trans ih
  | _ => assumption

theorem Device.Moves.bounded (h : d.Moves F C e) (hd : d.bounded) : e.bounded := by
  induction h with
  | refl => exact hd
  | raise _ f i ih => rw [Device.raise_eq]; exact ih
  | exhaust _ x ih =>
    obtain ⟨a, b, c, k, l⟩ := ih
    unfold Device.addExhaustion
    split
    · refine ⟨a, b, c, ?_, l⟩
      simp only [List.length_append, List.length_cons, List.length_nil]
      omega
    · refine ⟨a, b, c, ?_, satAdd_le _ _ _⟩
      have room : Config.exhaustionRoom = 16 := rfl
      simp only [List.length_append, List.length_drop, List.length_cons, List.length_nil]
      omega
  | removal _ r ih =>
    obtain ⟨a, b, c, k, l⟩ := ih
    unfold Device.addRemoval
    split
    · refine ⟨a, ?_, c, k, l⟩
      simp only [List.length_append, List.length_cons, List.length_nil]
      omega
    · refine ⟨a, ?_, satAdd_le _ _ _, k, l⟩
      have room : Config.removalRoom = 32 := rfl
      simp only [List.length_append, List.length_drop, List.length_cons, List.length_nil]
      omega
  | exhaustionsRead _ ih => exact ⟨ih.1, ih.2.1, ih.2.2.1, Nat.zero_le _, Nat.zero_le _⟩
  | removalsRead _ ih => exact ⟨ih.1, Nat.zero_le _, Nat.zero_le _, ih.2.2.2⟩
  | grantsLeave _ l hl ih => exact ⟨Nat.le_trans hl ih.1, ih.2⟩
  | grantJoins _ g hr ih =>
    refine ⟨?_, ih.2⟩
    simp only [List.length_append, List.length_cons, List.length_nil]
    omega
  | _ => assumption

theorem Device.Moves.canonical (h : d.Moves F C e) (hd : d.tablesCanonical) : e.tablesCanonical := by
  induction h with
  | refl => exact hd
  | raise _ f i ih =>
    unfold Device.raise
    split
    · exact ⟨Table.put_wf _ _ _ _ ih.1, ih.2⟩
    · exact ih
  | clear _ f i ih => exact ⟨Table.put_wf _ _ _ _ ih.1, ih.2⟩
  | attentionRestart _ ih => exact ⟨Table.empty_wf _, ih.2⟩
  | exhaust _ x ih => rw [Device.addExhaustion_eq]; exact ih
  | removal _ r ih => rw [Device.addRemoval_eq]; exact ih
  | fleet _ t ht _ ih => exact ⟨ih.1, ht ih.2.1, ih.2.2⟩
  | callouts _ t ht ih => exact ⟨ih.1, ih.2.1, ht ih.2.2.1, ih.2.2.2⟩
  | tenants _ t ht ih =>
    obtain ⟨a, b, c, k, l, m⟩ := ih
    exact ⟨a, b, c, ht k, l, m⟩
  | accounts _ t ht ih =>
    obtain ⟨a, b, c, k, l, m⟩ := ih
    exact ⟨a, b, c, k, ht l, m⟩
  | tickets _ t ht ih =>
    obtain ⟨a, b, c, k, l, m, n⟩ := ih
    exact ⟨a, b, c, k, l, ht m, n⟩
  | queues _ t ht ih =>
    obtain ⟨a, b, c, k, l, m, n, o⟩ := ih
    exact ⟨a, b, c, k, l, m, ht n, o⟩
  | terminals _ t ht _ ih =>
    obtain ⟨a, b, c, k, l, m, n, o, p⟩ := ih
    exact ⟨a, b, c, k, l, m, n, ht o, p⟩
  | lines _ t ht _ ih =>
    obtain ⟨a, b, c, k, l, m, n, o, p, q⟩ := ih
    exact ⟨a, b, c, k, l, m, n, o, ht p, q⟩
  | stock _ t ht ih =>
    obtain ⟨a, b, c, k, l, m, n, o, p, q, r⟩ := ih
    exact ⟨a, b, c, k, l, m, n, o, p, ht q, r⟩
  | orders _ t ht ih =>
    obtain ⟨a, b, c, k, l, m, n, o, p, q, r⟩ := ih
    exact ⟨a, b, c, k, l, m, n, o, p, q, ht r⟩
  | _ => assumption

end Sys2Proof.Machine
end

