-- ==== Sys2Proof/Laws/Exec.lean ====
section
/-! SUPPORT. What running a command can do, said once for every command: it answers a next state, and but for
the commands of time, store, guard latch, period, power and reset, what it leaves of the device is at most a
new working copy, which a running save forbids, and moves of the runtime records. -/

namespace Sys2Proof.Machine

variable {F C : Prop}

/-- The commands with an effect that `Device.Serves` does not describe. -/
def isSpecial : Instr → Bool
  | .setTime | .commitSettings | .saveEnd _ | .setGuard | .closePeriod | .softReset => true
  | .mainPowerOn | .externalReset | .externalResetAssert | .mainPowerLoss | .batteryDip _ => true
  | _ => false

/-- What serving a request can do: nothing, or the oldest frame leaves the queue and is answered. -/
theorem serveWhen_cases (kinds : Nat → Bool) (h : List Byte → Device → Device × List Byte) (s : State) :
    serveWhen kinds h s = s ∨
      ∃ f rest, s.link.queue = f :: rest ∧ s.device.running = true ∧ kinds f.kind = true ∧
        serveWhen kinds h s = s.served f rest (h f.body s.device) := by
  unfold serveWhen
  split
  · exact .inl rfl
  · rename_i f rest hq
    split
    · rename_i hk
      rw [Bool.and_eq_true] at hk
      exact .inr ⟨f, rest, hq, hk.1, hk.2, rfl⟩
    · exact .inl rfl

/-- Serving the request at the front of the queue. -/
theorem serve_offer (s : State) (hr : s.device.running = true) (kind : Nat)
    (h : List Byte → Device → Device × List Byte) (tag : Byte) (body : List Byte) :
    serve kind h (s.offer kind tag body)
      = s.reply (replyKind kind) tag (h body s.device).2 (h body s.device).1 := by
  have hr' : (s.offer kind tag body).device.running = true := hr
  unfold serve serveWhen
  simp only [State.offer] at *
  rw [if_pos (by simp [hr'])]
  rfl

theorem serveWhen_serves (kinds : Nat → Bool) {h : List Byte → Device → Device × List Byte}
    (hh : ∀ body (d : Device), d.Serves F C (h body d).1) (s : State) :
    s.device.Serves F C (serveWhen kinds h s).device := by
  rcases serveWhen_cases kinds h s with e | ⟨f, rest, -, -, -, e⟩
  · rw [e]
    exact .refl _
  · rw [e]
    exact hh _ _

theorem serve_serves (kind : Nat) {h : List Byte → Device → Device × List Byte}
    (hh : ∀ body (d : Device), d.Serves F C (h body d).1) (s : State) :
    s.device.Serves F C (serve kind h s).device := serveWhen_serves _ hh s

theorem serve_same (kind : Nat) {h : List Byte → Device → Device × List Byte}
    (hh : ∀ body d, (h body d).1 = d) (s : State) : s.device.Serves F C (serve kind h s).device :=
  serve_serves kind (fun body d => by rw [hh]; exact .refl d) s

theorem whenRunning_moves {f : Device → Device} (hf : ∀ d : Device, d.Moves F C (f d)) (s : State) :
    s.device.Serves F C (whenRunning f s).device := by
  unfold whenRunning
  split
  · exact .of_moves (hf _)
  · exact .refl _

/-- Every command answers a next state. -/
theorem exec_next (c : Instr) (s : State) : ∃ t, exec c s = .next t := by
  cases c <;> exact ⟨_, rfl⟩

/-- What a command can do to the device. -/
theorem exec_serves (c : Instr) (hc : isSpecial c = false) (s t : State) (h : exec c s = .next t) :
    s.device.Serves (c.movesFloor = true) (c.movesCounters = true) t.device := by
  cases c
  case hostFrame bytes =>
    cases h
    show s.device.Serves _ _ (receiveBytes bytes s).device
    unfold receiveBytes
    split <;> exact .refl _
  case frameGap bytes =>
    cases h
    show s.device.Serves _ _ (receiveAfterGap bytes s).device
    unfold receiveAfterGap
    split <;> exact .refl _
  case unknownKind =>
    cases h
    exact serveWhen_serves _ (fun body d => .refl d) s
  case identify =>
    cases h
    exact serve_same _ (identify_same s.link) s
  case readAttention =>
    cases h
    exact serve_same _ (readAttention_same) s
  case ackAttention =>
    cases h
    exact serve_serves _ (ackAttention_serves) s
  case setAttentionEnables =>
    cases h
    exact serve_serves _ (setAttentionEnables_serves) s
  case commitSettings =>
    cases hc
  case saveEnd readsBackEqual =>
    cases hc
  case softReset =>
    cases hc
  case setTime =>
    cases hc
  case readTime =>
    cases h
    exact serve_same _ (readTime_same) s
  case setPrinter =>
    cases h
    exact (serve_serves (F := False) (C := True) _ setPrinter_serves s).mono (False.elim) (fun _ => rfl)
  case retirePrinter =>
    cases h
    exact (serve_serves (F := False) (C := True) _ retirePrinter_serves s).mono (False.elim) (fun _ => rfl)
  case printerReport =>
    cases h
    exact (serve_serves (F := False) (C := True) _ printerReport_serves s).mono (False.elim) (fun _ => rfl)
  case readPrinter =>
    cases h
    exact serve_same _ (readPrinter_same) s
  case silenceExpiry slot =>
    cases h
    exact (whenRunning_moves (F := False) (C := True)
      (fun d => Device.silenceExpiry_moves .refl slot) s).mono (False.elim) (fun _ => rfl)
  case stallExpiry slot =>
    cases h
    exact whenRunning_moves (fun d => Device.stallExpiry_moves .refl slot) s
  case holdoffExpiry slot cls =>
    cases h
    exact whenRunning_moves (fun d => Device.holdoffExpiry_moves .refl slot cls) s
  case setConditionMap =>
    cases h
    exact serve_serves _ (setConditionMap_serves) s
  case setFaultPolicy =>
    cases h
    exact serve_serves _ (setFaultPolicy_serves) s
  case clearFault =>
    cases h
    exact serve_serves _ (clearFault_serves) s
  case readFaults =>
    cases h
    exact serve_same _ (readFaults_same) s
  case escalation record =>
    cases h
    exact whenRunning_moves (fun d => Device.escalation_moves .refl record) s
  case readCallouts =>
    cases h
    exact serve_same _ (readCallouts_same) s
  case dispatchCallout =>
    cases h
    exact serve_serves _ (dispatchCallout_serves) s
  case closeCallout =>
    cases h
    exact serve_serves _ (closeCallout_serves) s
  case endService =>
    cases h
    exact (serve_serves (F := False) (C := True) _ endService_serves s).mono (False.elim) (fun _ => rfl)
  case setTenant =>
    cases h
    exact (serve_serves (F := True) (C := False) _ setTenant_serves s).mono (fun _ => rfl) (False.elim)
  case setAccount =>
    cases h
    exact (serve_serves (F := True) (C := False) _ setAccount_serves s).mono (fun _ => rfl) (False.elim)
  case setCredential =>
    cases h
    exact serve_serves _ (setCredential_serves) s
  case eraseCredential =>
    cases h
    exact serve_serves _ (eraseCredential_serves) s
  case setGuard =>
    cases hc
  case unlockAccount =>
    cases h
    exact serve_serves _ (unlockAccount_serves) s
  case lockoutExpiry account =>
    cases h
    exact whenRunning_moves (fun d => Device.lockoutExpiry_moves .refl account) s
  case adjustUsage =>
    cases h
    exact serve_serves _ (adjustUsage_serves) s
  case closePeriod =>
    cases hc
  case readAccount =>
    cases h
    exact serve_same _ (readAccount_same) s
  case readTenant =>
    cases h
    exact serve_same _ (readTenant_same) s
  case setClass =>
    cases h
    exact serve_serves _ (setClass_serves) s
  case readClass =>
    cases h
    exact serve_serves _ (readClass_serves) s
  case quote =>
    cases h
    exact serve_same _ (quote_same) s
  case submitJob =>
    cases h
    exact serve_serves _ (submitJob_serves) s
  case cancelJob =>
    cases h
    exact serve_serves _ (cancelJob_serves) s
  case ticketExpiry ticket =>
    cases h
    exact whenRunning_moves (fun d => Device.ticketExpiry_moves .refl ticket) s
  case takeGrants =>
    cases h
    exact serve_serves _ (takeGrantsRequest_serves) s
  case jobDone =>
    cases h
    exact serve_serves _ (jobDone_serves) s
  case completionDeadline ticket =>
    cases h
    exact whenRunning_moves (fun d => Device.completionDeadline_moves .refl ticket) s
  case readTickets =>
    cases h
    exact serve_serves _ (readTickets_serves) s
  case setJobLimits =>
    cases h
    exact serve_serves _ (setJobLimits_serves) s
  case setTerminal =>
    cases h
    exact (serve_serves (F := True) (C := False) _ setTerminal_serves s).mono (fun _ => rfl) (False.elim)
  case setLine =>
    cases h
    exact (serve_serves (F := True) (C := False) _ setLine_serves s).mono (fun _ => rfl) (False.elim)
  case readTerminals =>
    cases h
    exact serve_same _ (readTerminals_same) s
  case answerWindowClose line =>
    cases h
    exact (whenRunning_moves (F := True) (C := False)
      (fun d => Device.pollFails_moves .refl line) s).mono (fun _ => rfl) (False.elim)
  case badAnswer line why =>
    cases h
    exact (whenRunning_moves (F := True) (C := False)
      (fun d => Device.pollFails_moves .refl line) s).mono (fun _ => rfl) (False.elim)
  case quietPauseEnd line =>
    cases h
    exact (whenRunning_moves (F := True) (C := False)
      (fun d => Device.quietPauseEnd_moves .refl line) s).mono (fun _ => rfl) (False.elim)
  case idle line =>
    cases h
    exact (whenRunning_moves (F := True) (C := False)
      (fun d => Device.pollAnswered_moves .refl line .idle (fun _ k => k.elim (fun k => nomatch k) (fun k => nomatch k))) s).mono (fun _ => rfl) (False.elim)
  case joinRequest line serial =>
    cases h
    exact (whenRunning_moves (F := True) (C := False)
      (fun d => Device.pollAnswered_moves .refl line (.joinRequest serial) (fun _ k => k.elim (fun k => nomatch k) (fun k => nomatch k))) s).mono (fun _ => rfl) (False.elim)
  case ready line =>
    cases h
    exact (whenRunning_moves (F := True) (C := False)
      (fun d => Device.pollAnswered_moves .refl line .ready (fun _ k => k.elim (fun k => nomatch k) (fun k => nomatch k))) s).mono (fun _ => rfl) (False.elim)
  case recentlyLostExpiry terminal =>
    cases h
    exact (whenRunning_moves (F := True) (C := False)
      (fun d => Device.recentlyLostExpiry_moves .refl terminal) s).mono (fun _ => rfl) (False.elim)
  case badge line toggle token =>
    cases h
    exact (whenRunning_moves (F := True) (C := False)
      (fun d => Device.pollAnswered_moves .refl line (.event toggle (.badge token)) (fun _ k => k.elim (fun k => nomatch k) (fun k => nomatch k))) s).mono (fun _ => rfl) (False.elim)
  case pin line toggle digest =>
    cases h
    exact (whenRunning_moves (F := True) (C := False)
      (fun d => Device.pollAnswered_moves .refl line (.event toggle (.pin digest)) (fun _ k => k.elim (fun k => nomatch k) (fun k => nomatch k))) s).mono (fun _ => rfl) (False.elim)
  case release line toggle n =>
    cases h
    exact (whenRunning_moves (F := True) (C := False)
      (fun d => Device.pollAnswered_moves .refl line (.event toggle (.key (.release n))) (fun _ k => k.elim (fun k => nomatch k) (fun k => nomatch k))) s).mono (fun _ => rfl) (False.elim)
  case releaseAll line toggle =>
    cases h
    exact (whenRunning_moves (F := True) (C := False)
      (fun d => Device.pollAnswered_moves .refl line (.event toggle (.key .releaseAll)) (fun _ k => k.elim (fun k => nomatch k) (fun k => nomatch k))) s).mono (fun _ => rfl) (False.elim)
  case cancel line toggle n =>
    cases h
    exact (whenRunning_moves (F := True) (C := False)
      (fun d => Device.pollAnswered_moves .refl line (.event toggle (.key (.cancel n))) (fun _ k => k.elim (fun k => nomatch k) (fun k => nomatch k))) s).mono (fun _ => rfl) (False.elim)
  case nextPage line toggle =>
    cases h
    exact (whenRunning_moves (F := True) (C := False)
      (fun d => Device.pollAnswered_moves .refl line (.event toggle (.key .nextPage)) (fun _ k => k.elim (fun k => nomatch k) (fun k => nomatch k))) s).mono (fun _ => rfl) (False.elim)
  case logout line toggle =>
    cases h
    exact (whenRunning_moves (F := True) (C := False)
      (fun d => Device.pollAnswered_moves .refl line (.event toggle (.key .logout)) (fun _ k => k.elim (fun k => nomatch k) (fun k => nomatch k))) s).mono (fun _ => rfl) (False.elim)
  case attend line toggle =>
    cases h
    exact (whenRunning_moves (F := True) (C := True)
      (fun d => Device.pollAnswered_moves .refl line (.event toggle (.key .attend)) (fun _ _ => trivial)) s).mono (fun _ => rfl) (fun _ => rfl)
  case serviceDone line toggle =>
    cases h
    exact (whenRunning_moves (F := True) (C := True)
      (fun d => Device.pollAnswered_moves .refl line (.event toggle (.key .serviceDone)) (fun _ _ => trivial)) s).mono (fun _ => rfl) (fun _ => rfl)
  case unknownKey line toggle code =>
    cases h
    exact (whenRunning_moves (F := True) (C := False)
      (fun d => Device.pollAnswered_moves .refl line (.event toggle (.key .unknown)) (fun _ k => k.elim (fun k => nomatch k) (fun k => nomatch k))) s).mono (fun _ => rfl) (False.elim)
  case idleDeadline terminal =>
    cases h
    exact (whenRunning_moves (F := True) (C := False)
      (fun d => Device.idleDeadline_moves .refl terminal) s).mono (fun _ => rfl) (False.elim)
  case followUp terminal =>
    cases h
    exact (whenRunning_moves (F := True) (C := False)
      (fun d => Device.followUp_moves .refl terminal) s).mono (fun _ => rfl) (False.elim)
  case setForecast =>
    cases h
    exact serve_serves _ (setForecast_serves) s
  case readSupplies =>
    cases h
    exact serve_same _ (readSupplies_same) s
  case dayRollover =>
    cases h
    exact (whenRunning_moves (F := False) (C := True)
      (fun d => Device.dayRollover_moves .refl ) s).mono (False.elim) (fun _ => rfl)
  case setStockKind =>
    cases h
    exact serve_serves _ (setStockKind_serves) s
  case adjustStock =>
    cases h
    exact serve_serves _ (adjustStock_serves) s
  case approveOrder =>
    cases h
    exact serve_serves _ (approveOrder_serves) s
  case declineOrder =>
    cases h
    exact serve_serves _ (declineOrder_serves) s
  case cancelOrder =>
    cases h
    exact serve_serves _ (cancelOrder_serves) s
  case receiveDelivery =>
    cases h
    exact serve_serves _ (receiveDelivery_serves) s
  case overdueDeadline order =>
    cases h
    exact whenRunning_moves (fun d => Device.overdueDeadline_moves .refl order) s
  case readStock =>
    cases h
    exact serve_same _ (readStock_same) s
  case readOrders =>
    cases h
    exact serve_same _ (readOrders_same) s
  case mainPowerOn =>
    cases hc
  case externalReset =>
    cases hc
  case externalResetAssert =>
    cases hc
  case mainPowerLoss =>
    cases hc
  case batteryDip contentsKept =>
    cases hc

end Sys2Proof.Machine
end

