-- ==== Sys2Proof/Laws/Fields.lean ====
section
/-! SUPPORT. The fields of a body: what `toBytes` writes, `fields` reads back. -/

namespace Sys2Proof.Machine

@[simp] theorem length_toBytes (w n : Nat) : (toBytes w n).length = w := by
  induction w generalizing n with
  | zero => rfl
  | succ w ih => simp [toBytes, ih]

theorem ofBytes_toBytes_mod (w n : Nat) : ofBytes (toBytes w n) = n % 256 ^ w := by
  induction w generalizing n with
  | zero => simp [toBytes, ofBytes, Nat.mod_one]
  | succ w ih =>
    have split : n % 256 ^ (w + 1) = n % 256 + 256 * (n / 256 % 256 ^ w) := by
      rw [Nat.pow_succ, Nat.mul_comm, Nat.mod_mul]
    simp [toBytes, ofBytes, ih, split]

/-- A number that fits its field is read back. -/
theorem ofBytes_toBytes {w n : Nat} (h : n < 256 ^ w) : ofBytes (toBytes w n) = n := by
  rw [ofBytes_toBytes_mod, Nat.mod_eq_of_lt h]

theorem ofBytes_lt (l : List Byte) : ofBytes l < 256 ^ l.length := by
  induction l with
  | nil => simp [ofBytes]
  | cons b bs ih =>
    simp only [ofBytes, List.length_cons, Nat.pow_succ]
    have := b.isLt
    omega

/-- The bytes of a field that `fields` has read are `toBytes` of its value. -/
theorem toBytes_ofBytes (l : List Byte) : toBytes l.length (ofBytes l) = l := by
  induction l with
  | nil => rfl
  | cons b bs ih =>
    have := b.isLt
    have low : BitVec.ofNat 8 (b.toNat + 256 * ofBytes bs) = b := by
      apply BitVec.eq_of_toNat_eq
      simp only [BitVec.toNat_ofNat]
      omega
    have high : (b.toNat + 256 * ofBytes bs) / 256 = ofBytes bs := by omega
    simp only [List.length_cons, toBytes, ofBytes, high, ih, low]

theorem takeFields_toBytes {w v : Nat} (h : v < 256 ^ w) (ws : List Nat) (rest : List Byte) :
    takeFields (w :: ws) (toBytes w v ++ rest)
      = (takeFields ws rest).map fun e => (v :: e.1, e.2) := by
  have long : ¬ (toBytes w v ++ rest).length < w := by simp
  simp only [takeFields, if_neg long, List.drop_left' (length_toBytes w v),
    List.take_left' (length_toBytes w v), ofBytes_toBytes h]
  cases takeFields ws rest <;> rfl

theorem takeFields_cons (b : Byte) (ws : List Nat) (rest : List Byte) :
    takeFields (1 :: ws) (b :: rest) = (takeFields ws rest).map fun e => (b.toNat :: e.1, e.2) := by
  have long : ¬ (b :: rest).length < 1 := by simp
  simp only [takeFields, if_neg long, List.drop_succ_cons, List.drop_zero, List.take_succ_cons,
    List.take_zero, ofBytes, Nat.mul_zero, Nat.add_zero]
  cases takeFields ws rest <;> rfl

@[simp] theorem fields_nil : fields [] [] = some [] := rfl

@[simp] theorem fields_toBytes_append {w v : Nat} (h : v < 256 ^ w) (ws : List Nat) (rest : List Byte) :
    fields (w :: ws) (toBytes w v ++ rest) = (fields ws rest).map (v :: ·) := by
  simp only [fields, takeFields_toBytes h]
  cases takeFields ws rest with
  | none => rfl
  | some e => obtain ⟨vs, _ | _⟩ := e <;> rfl

@[simp] theorem fields_toBytes {w v : Nat} (h : v < 256 ^ w) : fields [w] (toBytes w v) = some [v] := by
  have := fields_toBytes_append h [] []
  simpa using this

@[simp] theorem fields_cons (b : Byte) (ws : List Nat) (rest : List Byte) :
    fields (1 :: ws) (b :: rest) = (fields ws rest).map (b.toNat :: ·) := by
  simp only [fields, takeFields_cons]
  cases takeFields ws rest with
  | none => rfl
  | some e => obtain ⟨vs, _ | _⟩ := e <;> rfl

/-- A body that fields of the given widths fill has their total length. -/
theorem takeFields_length {ws : List Nat} {b : List Byte} {vs : List Nat} {rest : List Byte}
    (h : takeFields ws b = some (vs, rest)) : b.length = ws.sum + rest.length := by
  induction ws generalizing b vs with
  | nil =>
    cases h
    simp
  | cons w ws ih =>
    unfold takeFields at h
    split at h
    · cases h
    · split at h
      · cases h
      · rename_i hk
        cases h
        have := ih hk
        simp only [List.length_drop] at this
        simp only [List.sum_cons]
        omega

/-- A body of another length has no fields of the given widths. -/
theorem fields_of_length {ws : List Nat} {b : List Byte} (h : b.length ≠ ws.sum) : fields ws b = none := by
  unfold fields
  split
  · rename_i hk
    have := takeFields_length hk
    simp at this
    exact absurd this h
  · rfl

@[simp] theorem boolOf_boolByte (b : Bool) : boolOf (boolByte b).toNat = some b := by
  cases b <;> rfl

@[simp] theorem FaultClass.ofNumber_number (c : FaultClass) : FaultClass.ofNumber c.number = some c := by
  cases c <;> rfl

theorem FaultClass.number_lt (c : FaultClass) : c.number < 256 := by cases c <;> decide

@[simp] theorem FaultMode.ofNumber_number (m : FaultMode) : FaultMode.ofNumber m.number = some m := by
  cases m <;> rfl

@[simp] theorem Channel.ofNumber_number (ch : Channel) : Channel.ofNumber ch.number = some ch := by
  cases ch <;> rfl

@[simp] theorem SizeClass.ofNumber_number (s : SizeClass) : SizeClass.ofNumber s.number = some s := by
  cases s <;> rfl

@[simp] theorem Role.ofNumber_number (r : Role) : Role.ofNumber r.number = some r := by
  cases r <;> rfl

@[simp] theorem ByClass.get_set {α : Type} (b : ByClass α) (v : α) (c k : FaultClass) :
    (b.set v c).get k = if k = c then v else b.get k := by
  cases c <;> cases k <;> rfl

@[simp] theorem ByChannel.get_set {α : Type} (b : ByChannel α) (v : α) (ch other : Channel) :
    (b.set v ch).get other = if other = ch then v else b.get other := by
  cases ch <;> cases other <;> rfl

@[simp] theorem ByClass.get_ofFn {α : Type} (f : FaultClass → α) (c : FaultClass) :
    (ByClass.ofFn f).get c = f c := by cases c <;> rfl

@[simp] theorem ByChannel.get_ofFn {α : Type} (f : Channel → α) (ch : Channel) :
    (ByChannel.ofFn f).get ch = f ch := by cases ch <;> rfl

end Sys2Proof.Machine
end

