-- ==== Sys2Proof/Laws/State.lean ====
section
/-! SUPPORT. What each update of a record leaves in each field, and what reading a record back gives: the small
lemmas that keep later proofs from unfolding an update. -/

namespace Sys2Proof.Machine

variable (s : State) (d : Device)

/-! ## The whole state -/

@[simp] theorem State.offer_device (k : Nat) (t : Byte) (b : List Byte) : (s.offer k t b).device = s.device := rfl
@[simp] theorem State.offer_pending (k : Nat) (t : Byte) (b : List Byte) : (s.offer k t b).pending = s.pending := rfl
@[simp] theorem State.offer_queue (k : Nat) (t : Byte) (b : List Byte) :
    (s.offer k t b).link.queue = ⟨k, t, b⟩ :: s.link.queue := rfl
@[simp] theorem State.reply_device (k : Nat) (t : Byte) (b : List Byte) : (s.reply k t b d).device = d := rfl
@[simp] theorem State.reply_pending (k : Nat) (t : Byte) (b : List Byte) : (s.reply k t b d).pending = s.pending := rfl
@[simp] theorem State.reply_queue (k : Nat) (t : Byte) (b : List Byte) : (s.reply k t b d).link.queue = s.link.queue := rfl
@[simp] theorem State.served_device (f : Frame) (rest : List Frame) (r : Device × List Byte) :
    (s.served f rest r).device = r.1 := rfl
@[simp] theorem State.served_pending (f : Frame) (rest : List Frame) (r : Device × List Byte) :
    (s.served f rest r).pending = s.pending := rfl
@[simp] theorem State.served_queue (f : Frame) (rest : List Frame) (r : Device × List Byte) :
    (s.served f rest r).link.queue = rest := rfl

/-! ## `Device.putPrinter` -/

@[simp] theorem Device.putPrinter_mainPower (p : Nat) (r : Printer) : (d.putPrinter p r).mainPower = d.mainPower := rfl
@[simp] theorem Device.putPrinter_rstnLow (p : Nat) (r : Printer) : (d.putPrinter p r).rstnLow = d.rstnLow := rfl
@[simp] theorem Device.putPrinter_uptime (p : Nat) (r : Printer) : (d.putPrinter p r).uptime = d.uptime := rfl
@[simp] theorem Device.putPrinter_wall (p : Nat) (r : Printer) : (d.putPrinter p r).wall = d.wall := rfl
@[simp] theorem Device.putPrinter_wallValid (p : Nat) (r : Printer) : (d.putPrinter p r).wallValid = d.wallValid := rfl
@[simp] theorem Device.putPrinter_markerValid (p : Nat) (r : Printer) : (d.putPrinter p r).markerValid = d.markerValid := rfl
@[simp] theorem Device.putPrinter_comparator (p : Nat) (r : Printer) : (d.putPrinter p r).comparator = d.comparator := rfl
@[simp] theorem Device.putPrinter_work (p : Nat) (r : Printer) : (d.putPrinter p r).work = d.work := rfl
@[simp] theorem Device.putPrinter_store (p : Nat) (r : Printer) : (d.putPrinter p r).store = d.store := rfl
@[simp] theorem Device.putPrinter_start (p : Nat) (r : Printer) : (d.putPrinter p r).start = d.start := rfl
@[simp] theorem Device.putPrinter_guardLatch (p : Nat) (r : Printer) : (d.putPrinter p r).guardLatch = d.guardLatch := rfl
@[simp] theorem Device.putPrinter_attention (p : Nat) (r : Printer) : (d.putPrinter p r).attention = d.attention := rfl
@[simp] theorem Device.putPrinter_printers (p : Nat) (r : Printer) : (d.putPrinter p r).printers = d.printers.put {} p r := rfl
@[simp] theorem Device.putPrinter_nextRollover (p : Nat) (r : Printer) : (d.putPrinter p r).nextRollover = d.nextRollover := rfl
@[simp] theorem Device.putPrinter_callouts (p : Nat) (r : Printer) : (d.putPrinter p r).callouts = d.callouts := rfl
@[simp] theorem Device.putPrinter_calloutSerial (p : Nat) (r : Printer) : (d.putPrinter p r).calloutSerial = d.calloutSerial := rfl
@[simp] theorem Device.putPrinter_pendingList (p : Nat) (r : Printer) : (d.putPrinter p r).pendingList = d.pendingList := rfl
@[simp] theorem Device.putPrinter_tenants (p : Nat) (r : Printer) : (d.putPrinter p r).tenants = d.tenants := rfl
@[simp] theorem Device.putPrinter_accounts (p : Nat) (r : Printer) : (d.putPrinter p r).accounts = d.accounts := rfl
@[simp] theorem Device.putPrinter_period (p : Nat) (r : Printer) : (d.putPrinter p r).period = d.period := rfl
@[simp] theorem Device.putPrinter_exhaustions (p : Nat) (r : Printer) : (d.putPrinter p r).exhaustions = d.exhaustions := rfl
@[simp] theorem Device.putPrinter_exhaustionsDropped (p : Nat) (r : Printer) : (d.putPrinter p r).exhaustionsDropped = d.exhaustionsDropped := rfl
@[simp] theorem Device.putPrinter_tickets (p : Nat) (r : Printer) : (d.putPrinter p r).tickets = d.tickets := rfl
@[simp] theorem Device.putPrinter_nextSequence (p : Nat) (r : Printer) : (d.putPrinter p r).nextSequence = d.nextSequence := rfl
@[simp] theorem Device.putPrinter_queues (p : Nat) (r : Printer) : (d.putPrinter p r).queues = d.queues := rfl
@[simp] theorem Device.putPrinter_grants (p : Nat) (r : Printer) : (d.putPrinter p r).grants = d.grants := rfl
@[simp] theorem Device.putPrinter_waiting (p : Nat) (r : Printer) : (d.putPrinter p r).waiting = d.waiting := rfl
@[simp] theorem Device.putPrinter_removals (p : Nat) (r : Printer) : (d.putPrinter p r).removals = d.removals := rfl
@[simp] theorem Device.putPrinter_removalsDropped (p : Nat) (r : Printer) : (d.putPrinter p r).removalsDropped = d.removalsDropped := rfl
@[simp] theorem Device.putPrinter_terminals (p : Nat) (r : Printer) : (d.putPrinter p r).terminals = d.terminals := rfl
@[simp] theorem Device.putPrinter_lines (p : Nat) (r : Printer) : (d.putPrinter p r).lines = d.lines := rfl
@[simp] theorem Device.putPrinter_stock (p : Nat) (r : Printer) : (d.putPrinter p r).stock = d.stock := rfl
@[simp] theorem Device.putPrinter_orders (p : Nat) (r : Printer) : (d.putPrinter p r).orders = d.orders := rfl
@[simp] theorem Device.putPrinter_orderSerial (p : Nat) (r : Printer) : (d.putPrinter p r).orderSerial = d.orderSerial := rfl
@[simp] theorem Device.putPrinter_settings (p : Nat) (r : Printer) (x : Nat) : (d.putPrinter p r).settings x = d.settings x := rfl
@[simp] theorem Device.putPrinter_mapEntry (p : Nat) (r : Printer) (x : Nat) : (d.putPrinter p r).mapEntry x = d.mapEntry x := rfl
@[simp] theorem Device.putPrinter_policy (p : Nat) (r : Printer) (x : FaultClass) : (d.putPrinter p r).policy x = d.policy x := rfl
@[simp] theorem Device.putPrinter_tenantSettings (p : Nat) (r : Printer) (x : Nat) : (d.putPrinter p r).tenantSettings x = d.tenantSettings x := rfl
@[simp] theorem Device.putPrinter_accountSettings (p : Nat) (r : Printer) (x : Nat) : (d.putPrinter p r).accountSettings x = d.accountSettings x := rfl
@[simp] theorem Device.putPrinter_credentials (p : Nat) (r : Printer) (x : Nat) : (d.putPrinter p r).credentials x = d.credentials x := rfl
@[simp] theorem Device.putPrinter_rates (p : Nat) (r : Printer) (x : Nat) : (d.putPrinter p r).rates x = d.rates x := rfl
@[simp] theorem Device.putPrinter_terminalSettings (p : Nat) (r : Printer) (x : Nat) : (d.putPrinter p r).terminalSettings x = d.terminalSettings x := rfl
@[simp] theorem Device.putPrinter_lineSettings (p : Nat) (r : Printer) (x : Nat) : (d.putPrinter p r).lineSettings x = d.lineSettings x := rfl
@[simp] theorem Device.putPrinter_kindSettings (p : Nat) (r : Printer) (x : Nat) : (d.putPrinter p r).kindSettings x = d.kindSettings x := rfl

/-! ## `Device.modPrinter` -/

@[simp] theorem Device.modPrinter_mainPower (p : Nat) (f : Printer → Printer) : (d.modPrinter p f).mainPower = d.mainPower := rfl
@[simp] theorem Device.modPrinter_rstnLow (p : Nat) (f : Printer → Printer) : (d.modPrinter p f).rstnLow = d.rstnLow := rfl
@[simp] theorem Device.modPrinter_uptime (p : Nat) (f : Printer → Printer) : (d.modPrinter p f).uptime = d.uptime := rfl
@[simp] theorem Device.modPrinter_wall (p : Nat) (f : Printer → Printer) : (d.modPrinter p f).wall = d.wall := rfl
@[simp] theorem Device.modPrinter_wallValid (p : Nat) (f : Printer → Printer) : (d.modPrinter p f).wallValid = d.wallValid := rfl
@[simp] theorem Device.modPrinter_markerValid (p : Nat) (f : Printer → Printer) : (d.modPrinter p f).markerValid = d.markerValid := rfl
@[simp] theorem Device.modPrinter_comparator (p : Nat) (f : Printer → Printer) : (d.modPrinter p f).comparator = d.comparator := rfl
@[simp] theorem Device.modPrinter_work (p : Nat) (f : Printer → Printer) : (d.modPrinter p f).work = d.work := rfl
@[simp] theorem Device.modPrinter_store (p : Nat) (f : Printer → Printer) : (d.modPrinter p f).store = d.store := rfl
@[simp] theorem Device.modPrinter_start (p : Nat) (f : Printer → Printer) : (d.modPrinter p f).start = d.start := rfl
@[simp] theorem Device.modPrinter_guardLatch (p : Nat) (f : Printer → Printer) : (d.modPrinter p f).guardLatch = d.guardLatch := rfl
@[simp] theorem Device.modPrinter_attention (p : Nat) (f : Printer → Printer) : (d.modPrinter p f).attention = d.attention := rfl
@[simp] theorem Device.modPrinter_printers (p : Nat) (f : Printer → Printer) : (d.modPrinter p f).printers = d.printers.put {} p (f (d.printer p)) := rfl
@[simp] theorem Device.modPrinter_nextRollover (p : Nat) (f : Printer → Printer) : (d.modPrinter p f).nextRollover = d.nextRollover := rfl
@[simp] theorem Device.modPrinter_callouts (p : Nat) (f : Printer → Printer) : (d.modPrinter p f).callouts = d.callouts := rfl
@[simp] theorem Device.modPrinter_calloutSerial (p : Nat) (f : Printer → Printer) : (d.modPrinter p f).calloutSerial = d.calloutSerial := rfl
@[simp] theorem Device.modPrinter_pendingList (p : Nat) (f : Printer → Printer) : (d.modPrinter p f).pendingList = d.pendingList := rfl
@[simp] theorem Device.modPrinter_tenants (p : Nat) (f : Printer → Printer) : (d.modPrinter p f).tenants = d.tenants := rfl
@[simp] theorem Device.modPrinter_accounts (p : Nat) (f : Printer → Printer) : (d.modPrinter p f).accounts = d.accounts := rfl
@[simp] theorem Device.modPrinter_period (p : Nat) (f : Printer → Printer) : (d.modPrinter p f).period = d.period := rfl
@[simp] theorem Device.modPrinter_exhaustions (p : Nat) (f : Printer → Printer) : (d.modPrinter p f).exhaustions = d.exhaustions := rfl
@[simp] theorem Device.modPrinter_exhaustionsDropped (p : Nat) (f : Printer → Printer) : (d.modPrinter p f).exhaustionsDropped = d.exhaustionsDropped := rfl
@[simp] theorem Device.modPrinter_tickets (p : Nat) (f : Printer → Printer) : (d.modPrinter p f).tickets = d.tickets := rfl
@[simp] theorem Device.modPrinter_nextSequence (p : Nat) (f : Printer → Printer) : (d.modPrinter p f).nextSequence = d.nextSequence := rfl
@[simp] theorem Device.modPrinter_queues (p : Nat) (f : Printer → Printer) : (d.modPrinter p f).queues = d.queues := rfl
@[simp] theorem Device.modPrinter_grants (p : Nat) (f : Printer → Printer) : (d.modPrinter p f).grants = d.grants := rfl
@[simp] theorem Device.modPrinter_waiting (p : Nat) (f : Printer → Printer) : (d.modPrinter p f).waiting = d.waiting := rfl
@[simp] theorem Device.modPrinter_removals (p : Nat) (f : Printer → Printer) : (d.modPrinter p f).removals = d.removals := rfl
@[simp] theorem Device.modPrinter_removalsDropped (p : Nat) (f : Printer → Printer) : (d.modPrinter p f).removalsDropped = d.removalsDropped := rfl
@[simp] theorem Device.modPrinter_terminals (p : Nat) (f : Printer → Printer) : (d.modPrinter p f).terminals = d.terminals := rfl
@[simp] theorem Device.modPrinter_lines (p : Nat) (f : Printer → Printer) : (d.modPrinter p f).lines = d.lines := rfl
@[simp] theorem Device.modPrinter_stock (p : Nat) (f : Printer → Printer) : (d.modPrinter p f).stock = d.stock := rfl
@[simp] theorem Device.modPrinter_orders (p : Nat) (f : Printer → Printer) : (d.modPrinter p f).orders = d.orders := rfl
@[simp] theorem Device.modPrinter_orderSerial (p : Nat) (f : Printer → Printer) : (d.modPrinter p f).orderSerial = d.orderSerial := rfl
@[simp] theorem Device.modPrinter_settings (p : Nat) (f : Printer → Printer) (x : Nat) : (d.modPrinter p f).settings x = d.settings x := rfl
@[simp] theorem Device.modPrinter_mapEntry (p : Nat) (f : Printer → Printer) (x : Nat) : (d.modPrinter p f).mapEntry x = d.mapEntry x := rfl
@[simp] theorem Device.modPrinter_policy (p : Nat) (f : Printer → Printer) (x : FaultClass) : (d.modPrinter p f).policy x = d.policy x := rfl
@[simp] theorem Device.modPrinter_tenantSettings (p : Nat) (f : Printer → Printer) (x : Nat) : (d.modPrinter p f).tenantSettings x = d.tenantSettings x := rfl
@[simp] theorem Device.modPrinter_accountSettings (p : Nat) (f : Printer → Printer) (x : Nat) : (d.modPrinter p f).accountSettings x = d.accountSettings x := rfl
@[simp] theorem Device.modPrinter_credentials (p : Nat) (f : Printer → Printer) (x : Nat) : (d.modPrinter p f).credentials x = d.credentials x := rfl
@[simp] theorem Device.modPrinter_rates (p : Nat) (f : Printer → Printer) (x : Nat) : (d.modPrinter p f).rates x = d.rates x := rfl
@[simp] theorem Device.modPrinter_terminalSettings (p : Nat) (f : Printer → Printer) (x : Nat) : (d.modPrinter p f).terminalSettings x = d.terminalSettings x := rfl
@[simp] theorem Device.modPrinter_lineSettings (p : Nat) (f : Printer → Printer) (x : Nat) : (d.modPrinter p f).lineSettings x = d.lineSettings x := rfl
@[simp] theorem Device.modPrinter_kindSettings (p : Nat) (f : Printer → Printer) (x : Nat) : (d.modPrinter p f).kindSettings x = d.kindSettings x := rfl

/-! ## `Device.modTenant` -/

@[simp] theorem Device.modTenant_mainPower (n : Nat) (f : TenantTotals → TenantTotals) : (d.modTenant n f).mainPower = d.mainPower := rfl
@[simp] theorem Device.modTenant_rstnLow (n : Nat) (f : TenantTotals → TenantTotals) : (d.modTenant n f).rstnLow = d.rstnLow := rfl
@[simp] theorem Device.modTenant_uptime (n : Nat) (f : TenantTotals → TenantTotals) : (d.modTenant n f).uptime = d.uptime := rfl
@[simp] theorem Device.modTenant_wall (n : Nat) (f : TenantTotals → TenantTotals) : (d.modTenant n f).wall = d.wall := rfl
@[simp] theorem Device.modTenant_wallValid (n : Nat) (f : TenantTotals → TenantTotals) : (d.modTenant n f).wallValid = d.wallValid := rfl
@[simp] theorem Device.modTenant_markerValid (n : Nat) (f : TenantTotals → TenantTotals) : (d.modTenant n f).markerValid = d.markerValid := rfl
@[simp] theorem Device.modTenant_comparator (n : Nat) (f : TenantTotals → TenantTotals) : (d.modTenant n f).comparator = d.comparator := rfl
@[simp] theorem Device.modTenant_work (n : Nat) (f : TenantTotals → TenantTotals) : (d.modTenant n f).work = d.work := rfl
@[simp] theorem Device.modTenant_store (n : Nat) (f : TenantTotals → TenantTotals) : (d.modTenant n f).store = d.store := rfl
@[simp] theorem Device.modTenant_start (n : Nat) (f : TenantTotals → TenantTotals) : (d.modTenant n f).start = d.start := rfl
@[simp] theorem Device.modTenant_guardLatch (n : Nat) (f : TenantTotals → TenantTotals) : (d.modTenant n f).guardLatch = d.guardLatch := rfl
@[simp] theorem Device.modTenant_attention (n : Nat) (f : TenantTotals → TenantTotals) : (d.modTenant n f).attention = d.attention := rfl
@[simp] theorem Device.modTenant_printers (n : Nat) (f : TenantTotals → TenantTotals) : (d.modTenant n f).printers = d.printers := rfl
@[simp] theorem Device.modTenant_nextRollover (n : Nat) (f : TenantTotals → TenantTotals) : (d.modTenant n f).nextRollover = d.nextRollover := rfl
@[simp] theorem Device.modTenant_callouts (n : Nat) (f : TenantTotals → TenantTotals) : (d.modTenant n f).callouts = d.callouts := rfl
@[simp] theorem Device.modTenant_calloutSerial (n : Nat) (f : TenantTotals → TenantTotals) : (d.modTenant n f).calloutSerial = d.calloutSerial := rfl
@[simp] theorem Device.modTenant_pendingList (n : Nat) (f : TenantTotals → TenantTotals) : (d.modTenant n f).pendingList = d.pendingList := rfl
@[simp] theorem Device.modTenant_tenants (n : Nat) (f : TenantTotals → TenantTotals) : (d.modTenant n f).tenants = d.tenants.put {} n (f (d.tenantTotals n)) := rfl
@[simp] theorem Device.modTenant_accounts (n : Nat) (f : TenantTotals → TenantTotals) : (d.modTenant n f).accounts = d.accounts := rfl
@[simp] theorem Device.modTenant_period (n : Nat) (f : TenantTotals → TenantTotals) : (d.modTenant n f).period = d.period := rfl
@[simp] theorem Device.modTenant_exhaustions (n : Nat) (f : TenantTotals → TenantTotals) : (d.modTenant n f).exhaustions = d.exhaustions := rfl
@[simp] theorem Device.modTenant_exhaustionsDropped (n : Nat) (f : TenantTotals → TenantTotals) : (d.modTenant n f).exhaustionsDropped = d.exhaustionsDropped := rfl
@[simp] theorem Device.modTenant_tickets (n : Nat) (f : TenantTotals → TenantTotals) : (d.modTenant n f).tickets = d.tickets := rfl
@[simp] theorem Device.modTenant_nextSequence (n : Nat) (f : TenantTotals → TenantTotals) : (d.modTenant n f).nextSequence = d.nextSequence := rfl
@[simp] theorem Device.modTenant_queues (n : Nat) (f : TenantTotals → TenantTotals) : (d.modTenant n f).queues = d.queues := rfl
@[simp] theorem Device.modTenant_grants (n : Nat) (f : TenantTotals → TenantTotals) : (d.modTenant n f).grants = d.grants := rfl
@[simp] theorem Device.modTenant_waiting (n : Nat) (f : TenantTotals → TenantTotals) : (d.modTenant n f).waiting = d.waiting := rfl
@[simp] theorem Device.modTenant_removals (n : Nat) (f : TenantTotals → TenantTotals) : (d.modTenant n f).removals = d.removals := rfl
@[simp] theorem Device.modTenant_removalsDropped (n : Nat) (f : TenantTotals → TenantTotals) : (d.modTenant n f).removalsDropped = d.removalsDropped := rfl
@[simp] theorem Device.modTenant_terminals (n : Nat) (f : TenantTotals → TenantTotals) : (d.modTenant n f).terminals = d.terminals := rfl
@[simp] theorem Device.modTenant_lines (n : Nat) (f : TenantTotals → TenantTotals) : (d.modTenant n f).lines = d.lines := rfl
@[simp] theorem Device.modTenant_stock (n : Nat) (f : TenantTotals → TenantTotals) : (d.modTenant n f).stock = d.stock := rfl
@[simp] theorem Device.modTenant_orders (n : Nat) (f : TenantTotals → TenantTotals) : (d.modTenant n f).orders = d.orders := rfl
@[simp] theorem Device.modTenant_orderSerial (n : Nat) (f : TenantTotals → TenantTotals) : (d.modTenant n f).orderSerial = d.orderSerial := rfl
@[simp] theorem Device.modTenant_settings (n : Nat) (f : TenantTotals → TenantTotals) (x : Nat) : (d.modTenant n f).settings x = d.settings x := rfl
@[simp] theorem Device.modTenant_mapEntry (n : Nat) (f : TenantTotals → TenantTotals) (x : Nat) : (d.modTenant n f).mapEntry x = d.mapEntry x := rfl
@[simp] theorem Device.modTenant_policy (n : Nat) (f : TenantTotals → TenantTotals) (x : FaultClass) : (d.modTenant n f).policy x = d.policy x := rfl
@[simp] theorem Device.modTenant_tenantSettings (n : Nat) (f : TenantTotals → TenantTotals) (x : Nat) : (d.modTenant n f).tenantSettings x = d.tenantSettings x := rfl
@[simp] theorem Device.modTenant_accountSettings (n : Nat) (f : TenantTotals → TenantTotals) (x : Nat) : (d.modTenant n f).accountSettings x = d.accountSettings x := rfl
@[simp] theorem Device.modTenant_credentials (n : Nat) (f : TenantTotals → TenantTotals) (x : Nat) : (d.modTenant n f).credentials x = d.credentials x := rfl
@[simp] theorem Device.modTenant_rates (n : Nat) (f : TenantTotals → TenantTotals) (x : Nat) : (d.modTenant n f).rates x = d.rates x := rfl
@[simp] theorem Device.modTenant_terminalSettings (n : Nat) (f : TenantTotals → TenantTotals) (x : Nat) : (d.modTenant n f).terminalSettings x = d.terminalSettings x := rfl
@[simp] theorem Device.modTenant_lineSettings (n : Nat) (f : TenantTotals → TenantTotals) (x : Nat) : (d.modTenant n f).lineSettings x = d.lineSettings x := rfl
@[simp] theorem Device.modTenant_kindSettings (n : Nat) (f : TenantTotals → TenantTotals) (x : Nat) : (d.modTenant n f).kindSettings x = d.kindSettings x := rfl

/-! ## `Device.modAccount` -/

@[simp] theorem Device.modAccount_mainPower (n : Nat) (f : AccountTotals → AccountTotals) : (d.modAccount n f).mainPower = d.mainPower := rfl
@[simp] theorem Device.modAccount_rstnLow (n : Nat) (f : AccountTotals → AccountTotals) : (d.modAccount n f).rstnLow = d.rstnLow := rfl
@[simp] theorem Device.modAccount_uptime (n : Nat) (f : AccountTotals → AccountTotals) : (d.modAccount n f).uptime = d.uptime := rfl
@[simp] theorem Device.modAccount_wall (n : Nat) (f : AccountTotals → AccountTotals) : (d.modAccount n f).wall = d.wall := rfl
@[simp] theorem Device.modAccount_wallValid (n : Nat) (f : AccountTotals → AccountTotals) : (d.modAccount n f).wallValid = d.wallValid := rfl
@[simp] theorem Device.modAccount_markerValid (n : Nat) (f : AccountTotals → AccountTotals) : (d.modAccount n f).markerValid = d.markerValid := rfl
@[simp] theorem Device.modAccount_comparator (n : Nat) (f : AccountTotals → AccountTotals) : (d.modAccount n f).comparator = d.comparator := rfl
@[simp] theorem Device.modAccount_work (n : Nat) (f : AccountTotals → AccountTotals) : (d.modAccount n f).work = d.work := rfl
@[simp] theorem Device.modAccount_store (n : Nat) (f : AccountTotals → AccountTotals) : (d.modAccount n f).store = d.store := rfl
@[simp] theorem Device.modAccount_start (n : Nat) (f : AccountTotals → AccountTotals) : (d.modAccount n f).start = d.start := rfl
@[simp] theorem Device.modAccount_guardLatch (n : Nat) (f : AccountTotals → AccountTotals) : (d.modAccount n f).guardLatch = d.guardLatch := rfl
@[simp] theorem Device.modAccount_attention (n : Nat) (f : AccountTotals → AccountTotals) : (d.modAccount n f).attention = d.attention := rfl
@[simp] theorem Device.modAccount_printers (n : Nat) (f : AccountTotals → AccountTotals) : (d.modAccount n f).printers = d.printers := rfl
@[simp] theorem Device.modAccount_nextRollover (n : Nat) (f : AccountTotals → AccountTotals) : (d.modAccount n f).nextRollover = d.nextRollover := rfl
@[simp] theorem Device.modAccount_callouts (n : Nat) (f : AccountTotals → AccountTotals) : (d.modAccount n f).callouts = d.callouts := rfl
@[simp] theorem Device.modAccount_calloutSerial (n : Nat) (f : AccountTotals → AccountTotals) : (d.modAccount n f).calloutSerial = d.calloutSerial := rfl
@[simp] theorem Device.modAccount_pendingList (n : Nat) (f : AccountTotals → AccountTotals) : (d.modAccount n f).pendingList = d.pendingList := rfl
@[simp] theorem Device.modAccount_tenants (n : Nat) (f : AccountTotals → AccountTotals) : (d.modAccount n f).tenants = d.tenants := rfl
@[simp] theorem Device.modAccount_accounts (n : Nat) (f : AccountTotals → AccountTotals) : (d.modAccount n f).accounts = d.accounts.put {} n (f (d.accountTotals n)) := rfl
@[simp] theorem Device.modAccount_period (n : Nat) (f : AccountTotals → AccountTotals) : (d.modAccount n f).period = d.period := rfl
@[simp] theorem Device.modAccount_exhaustions (n : Nat) (f : AccountTotals → AccountTotals) : (d.modAccount n f).exhaustions = d.exhaustions := rfl
@[simp] theorem Device.modAccount_exhaustionsDropped (n : Nat) (f : AccountTotals → AccountTotals) : (d.modAccount n f).exhaustionsDropped = d.exhaustionsDropped := rfl
@[simp] theorem Device.modAccount_tickets (n : Nat) (f : AccountTotals → AccountTotals) : (d.modAccount n f).tickets = d.tickets := rfl
@[simp] theorem Device.modAccount_nextSequence (n : Nat) (f : AccountTotals → AccountTotals) : (d.modAccount n f).nextSequence = d.nextSequence := rfl
@[simp] theorem Device.modAccount_queues (n : Nat) (f : AccountTotals → AccountTotals) : (d.modAccount n f).queues = d.queues := rfl
@[simp] theorem Device.modAccount_grants (n : Nat) (f : AccountTotals → AccountTotals) : (d.modAccount n f).grants = d.grants := rfl
@[simp] theorem Device.modAccount_waiting (n : Nat) (f : AccountTotals → AccountTotals) : (d.modAccount n f).waiting = d.waiting := rfl
@[simp] theorem Device.modAccount_removals (n : Nat) (f : AccountTotals → AccountTotals) : (d.modAccount n f).removals = d.removals := rfl
@[simp] theorem Device.modAccount_removalsDropped (n : Nat) (f : AccountTotals → AccountTotals) : (d.modAccount n f).removalsDropped = d.removalsDropped := rfl
@[simp] theorem Device.modAccount_terminals (n : Nat) (f : AccountTotals → AccountTotals) : (d.modAccount n f).terminals = d.terminals := rfl
@[simp] theorem Device.modAccount_lines (n : Nat) (f : AccountTotals → AccountTotals) : (d.modAccount n f).lines = d.lines := rfl
@[simp] theorem Device.modAccount_stock (n : Nat) (f : AccountTotals → AccountTotals) : (d.modAccount n f).stock = d.stock := rfl
@[simp] theorem Device.modAccount_orders (n : Nat) (f : AccountTotals → AccountTotals) : (d.modAccount n f).orders = d.orders := rfl
@[simp] theorem Device.modAccount_orderSerial (n : Nat) (f : AccountTotals → AccountTotals) : (d.modAccount n f).orderSerial = d.orderSerial := rfl
@[simp] theorem Device.modAccount_settings (n : Nat) (f : AccountTotals → AccountTotals) (x : Nat) : (d.modAccount n f).settings x = d.settings x := rfl
@[simp] theorem Device.modAccount_mapEntry (n : Nat) (f : AccountTotals → AccountTotals) (x : Nat) : (d.modAccount n f).mapEntry x = d.mapEntry x := rfl
@[simp] theorem Device.modAccount_policy (n : Nat) (f : AccountTotals → AccountTotals) (x : FaultClass) : (d.modAccount n f).policy x = d.policy x := rfl
@[simp] theorem Device.modAccount_tenantSettings (n : Nat) (f : AccountTotals → AccountTotals) (x : Nat) : (d.modAccount n f).tenantSettings x = d.tenantSettings x := rfl
@[simp] theorem Device.modAccount_accountSettings (n : Nat) (f : AccountTotals → AccountTotals) (x : Nat) : (d.modAccount n f).accountSettings x = d.accountSettings x := rfl
@[simp] theorem Device.modAccount_credentials (n : Nat) (f : AccountTotals → AccountTotals) (x : Nat) : (d.modAccount n f).credentials x = d.credentials x := rfl
@[simp] theorem Device.modAccount_rates (n : Nat) (f : AccountTotals → AccountTotals) (x : Nat) : (d.modAccount n f).rates x = d.rates x := rfl
@[simp] theorem Device.modAccount_terminalSettings (n : Nat) (f : AccountTotals → AccountTotals) (x : Nat) : (d.modAccount n f).terminalSettings x = d.terminalSettings x := rfl
@[simp] theorem Device.modAccount_lineSettings (n : Nat) (f : AccountTotals → AccountTotals) (x : Nat) : (d.modAccount n f).lineSettings x = d.lineSettings x := rfl
@[simp] theorem Device.modAccount_kindSettings (n : Nat) (f : AccountTotals → AccountTotals) (x : Nat) : (d.modAccount n f).kindSettings x = d.kindSettings x := rfl

/-! ## `Device.putCallout` -/

@[simp] theorem Device.putCallout_mainPower (n : Nat) (c : Option Callout) : (d.putCallout n c).mainPower = d.mainPower := rfl
@[simp] theorem Device.putCallout_rstnLow (n : Nat) (c : Option Callout) : (d.putCallout n c).rstnLow = d.rstnLow := rfl
@[simp] theorem Device.putCallout_uptime (n : Nat) (c : Option Callout) : (d.putCallout n c).uptime = d.uptime := rfl
@[simp] theorem Device.putCallout_wall (n : Nat) (c : Option Callout) : (d.putCallout n c).wall = d.wall := rfl
@[simp] theorem Device.putCallout_wallValid (n : Nat) (c : Option Callout) : (d.putCallout n c).wallValid = d.wallValid := rfl
@[simp] theorem Device.putCallout_markerValid (n : Nat) (c : Option Callout) : (d.putCallout n c).markerValid = d.markerValid := rfl
@[simp] theorem Device.putCallout_comparator (n : Nat) (c : Option Callout) : (d.putCallout n c).comparator = d.comparator := rfl
@[simp] theorem Device.putCallout_work (n : Nat) (c : Option Callout) : (d.putCallout n c).work = d.work := rfl
@[simp] theorem Device.putCallout_store (n : Nat) (c : Option Callout) : (d.putCallout n c).store = d.store := rfl
@[simp] theorem Device.putCallout_start (n : Nat) (c : Option Callout) : (d.putCallout n c).start = d.start := rfl
@[simp] theorem Device.putCallout_guardLatch (n : Nat) (c : Option Callout) : (d.putCallout n c).guardLatch = d.guardLatch := rfl
@[simp] theorem Device.putCallout_attention (n : Nat) (c : Option Callout) : (d.putCallout n c).attention = d.attention := rfl
@[simp] theorem Device.putCallout_printers (n : Nat) (c : Option Callout) : (d.putCallout n c).printers = d.printers := rfl
@[simp] theorem Device.putCallout_nextRollover (n : Nat) (c : Option Callout) : (d.putCallout n c).nextRollover = d.nextRollover := rfl
@[simp] theorem Device.putCallout_callouts (n : Nat) (c : Option Callout) : (d.putCallout n c).callouts = d.callouts.put none n c := rfl
@[simp] theorem Device.putCallout_calloutSerial (n : Nat) (c : Option Callout) : (d.putCallout n c).calloutSerial = d.calloutSerial := rfl
@[simp] theorem Device.putCallout_pendingList (n : Nat) (c : Option Callout) : (d.putCallout n c).pendingList = d.pendingList := rfl
@[simp] theorem Device.putCallout_tenants (n : Nat) (c : Option Callout) : (d.putCallout n c).tenants = d.tenants := rfl
@[simp] theorem Device.putCallout_accounts (n : Nat) (c : Option Callout) : (d.putCallout n c).accounts = d.accounts := rfl
@[simp] theorem Device.putCallout_period (n : Nat) (c : Option Callout) : (d.putCallout n c).period = d.period := rfl
@[simp] theorem Device.putCallout_exhaustions (n : Nat) (c : Option Callout) : (d.putCallout n c).exhaustions = d.exhaustions := rfl
@[simp] theorem Device.putCallout_exhaustionsDropped (n : Nat) (c : Option Callout) : (d.putCallout n c).exhaustionsDropped = d.exhaustionsDropped := rfl
@[simp] theorem Device.putCallout_tickets (n : Nat) (c : Option Callout) : (d.putCallout n c).tickets = d.tickets := rfl
@[simp] theorem Device.putCallout_nextSequence (n : Nat) (c : Option Callout) : (d.putCallout n c).nextSequence = d.nextSequence := rfl
@[simp] theorem Device.putCallout_queues (n : Nat) (c : Option Callout) : (d.putCallout n c).queues = d.queues := rfl
@[simp] theorem Device.putCallout_grants (n : Nat) (c : Option Callout) : (d.putCallout n c).grants = d.grants := rfl
@[simp] theorem Device.putCallout_waiting (n : Nat) (c : Option Callout) : (d.putCallout n c).waiting = d.waiting := rfl
@[simp] theorem Device.putCallout_removals (n : Nat) (c : Option Callout) : (d.putCallout n c).removals = d.removals := rfl
@[simp] theorem Device.putCallout_removalsDropped (n : Nat) (c : Option Callout) : (d.putCallout n c).removalsDropped = d.removalsDropped := rfl
@[simp] theorem Device.putCallout_terminals (n : Nat) (c : Option Callout) : (d.putCallout n c).terminals = d.terminals := rfl
@[simp] theorem Device.putCallout_lines (n : Nat) (c : Option Callout) : (d.putCallout n c).lines = d.lines := rfl
@[simp] theorem Device.putCallout_stock (n : Nat) (c : Option Callout) : (d.putCallout n c).stock = d.stock := rfl
@[simp] theorem Device.putCallout_orders (n : Nat) (c : Option Callout) : (d.putCallout n c).orders = d.orders := rfl
@[simp] theorem Device.putCallout_orderSerial (n : Nat) (c : Option Callout) : (d.putCallout n c).orderSerial = d.orderSerial := rfl
@[simp] theorem Device.putCallout_settings (n : Nat) (c : Option Callout) (x : Nat) : (d.putCallout n c).settings x = d.settings x := rfl
@[simp] theorem Device.putCallout_mapEntry (n : Nat) (c : Option Callout) (x : Nat) : (d.putCallout n c).mapEntry x = d.mapEntry x := rfl
@[simp] theorem Device.putCallout_policy (n : Nat) (c : Option Callout) (x : FaultClass) : (d.putCallout n c).policy x = d.policy x := rfl
@[simp] theorem Device.putCallout_tenantSettings (n : Nat) (c : Option Callout) (x : Nat) : (d.putCallout n c).tenantSettings x = d.tenantSettings x := rfl
@[simp] theorem Device.putCallout_accountSettings (n : Nat) (c : Option Callout) (x : Nat) : (d.putCallout n c).accountSettings x = d.accountSettings x := rfl
@[simp] theorem Device.putCallout_credentials (n : Nat) (c : Option Callout) (x : Nat) : (d.putCallout n c).credentials x = d.credentials x := rfl
@[simp] theorem Device.putCallout_rates (n : Nat) (c : Option Callout) (x : Nat) : (d.putCallout n c).rates x = d.rates x := rfl
@[simp] theorem Device.putCallout_terminalSettings (n : Nat) (c : Option Callout) (x : Nat) : (d.putCallout n c).terminalSettings x = d.terminalSettings x := rfl
@[simp] theorem Device.putCallout_lineSettings (n : Nat) (c : Option Callout) (x : Nat) : (d.putCallout n c).lineSettings x = d.lineSettings x := rfl
@[simp] theorem Device.putCallout_kindSettings (n : Nat) (c : Option Callout) (x : Nat) : (d.putCallout n c).kindSettings x = d.kindSettings x := rfl

/-! ## `Device.putTicket` -/

@[simp] theorem Device.putTicket_mainPower (n : Nat) (t : Option Ticket) : (d.putTicket n t).mainPower = d.mainPower := rfl
@[simp] theorem Device.putTicket_rstnLow (n : Nat) (t : Option Ticket) : (d.putTicket n t).rstnLow = d.rstnLow := rfl
@[simp] theorem Device.putTicket_uptime (n : Nat) (t : Option Ticket) : (d.putTicket n t).uptime = d.uptime := rfl
@[simp] theorem Device.putTicket_wall (n : Nat) (t : Option Ticket) : (d.putTicket n t).wall = d.wall := rfl
@[simp] theorem Device.putTicket_wallValid (n : Nat) (t : Option Ticket) : (d.putTicket n t).wallValid = d.wallValid := rfl
@[simp] theorem Device.putTicket_markerValid (n : Nat) (t : Option Ticket) : (d.putTicket n t).markerValid = d.markerValid := rfl
@[simp] theorem Device.putTicket_comparator (n : Nat) (t : Option Ticket) : (d.putTicket n t).comparator = d.comparator := rfl
@[simp] theorem Device.putTicket_work (n : Nat) (t : Option Ticket) : (d.putTicket n t).work = d.work := rfl
@[simp] theorem Device.putTicket_store (n : Nat) (t : Option Ticket) : (d.putTicket n t).store = d.store := rfl
@[simp] theorem Device.putTicket_start (n : Nat) (t : Option Ticket) : (d.putTicket n t).start = d.start := rfl
@[simp] theorem Device.putTicket_guardLatch (n : Nat) (t : Option Ticket) : (d.putTicket n t).guardLatch = d.guardLatch := rfl
@[simp] theorem Device.putTicket_attention (n : Nat) (t : Option Ticket) : (d.putTicket n t).attention = d.attention := rfl
@[simp] theorem Device.putTicket_printers (n : Nat) (t : Option Ticket) : (d.putTicket n t).printers = d.printers := rfl
@[simp] theorem Device.putTicket_nextRollover (n : Nat) (t : Option Ticket) : (d.putTicket n t).nextRollover = d.nextRollover := rfl
@[simp] theorem Device.putTicket_callouts (n : Nat) (t : Option Ticket) : (d.putTicket n t).callouts = d.callouts := rfl
@[simp] theorem Device.putTicket_calloutSerial (n : Nat) (t : Option Ticket) : (d.putTicket n t).calloutSerial = d.calloutSerial := rfl
@[simp] theorem Device.putTicket_pendingList (n : Nat) (t : Option Ticket) : (d.putTicket n t).pendingList = d.pendingList := rfl
@[simp] theorem Device.putTicket_tenants (n : Nat) (t : Option Ticket) : (d.putTicket n t).tenants = d.tenants := rfl
@[simp] theorem Device.putTicket_accounts (n : Nat) (t : Option Ticket) : (d.putTicket n t).accounts = d.accounts := rfl
@[simp] theorem Device.putTicket_period (n : Nat) (t : Option Ticket) : (d.putTicket n t).period = d.period := rfl
@[simp] theorem Device.putTicket_exhaustions (n : Nat) (t : Option Ticket) : (d.putTicket n t).exhaustions = d.exhaustions := rfl
@[simp] theorem Device.putTicket_exhaustionsDropped (n : Nat) (t : Option Ticket) : (d.putTicket n t).exhaustionsDropped = d.exhaustionsDropped := rfl
@[simp] theorem Device.putTicket_tickets (n : Nat) (t : Option Ticket) : (d.putTicket n t).tickets = d.tickets.put none n t := rfl
@[simp] theorem Device.putTicket_nextSequence (n : Nat) (t : Option Ticket) : (d.putTicket n t).nextSequence = d.nextSequence := rfl
@[simp] theorem Device.putTicket_queues (n : Nat) (t : Option Ticket) : (d.putTicket n t).queues = d.queues := rfl
@[simp] theorem Device.putTicket_grants (n : Nat) (t : Option Ticket) : (d.putTicket n t).grants = d.grants := rfl
@[simp] theorem Device.putTicket_waiting (n : Nat) (t : Option Ticket) : (d.putTicket n t).waiting = d.waiting := rfl
@[simp] theorem Device.putTicket_removals (n : Nat) (t : Option Ticket) : (d.putTicket n t).removals = d.removals := rfl
@[simp] theorem Device.putTicket_removalsDropped (n : Nat) (t : Option Ticket) : (d.putTicket n t).removalsDropped = d.removalsDropped := rfl
@[simp] theorem Device.putTicket_terminals (n : Nat) (t : Option Ticket) : (d.putTicket n t).terminals = d.terminals := rfl
@[simp] theorem Device.putTicket_lines (n : Nat) (t : Option Ticket) : (d.putTicket n t).lines = d.lines := rfl
@[simp] theorem Device.putTicket_stock (n : Nat) (t : Option Ticket) : (d.putTicket n t).stock = d.stock := rfl
@[simp] theorem Device.putTicket_orders (n : Nat) (t : Option Ticket) : (d.putTicket n t).orders = d.orders := rfl
@[simp] theorem Device.putTicket_orderSerial (n : Nat) (t : Option Ticket) : (d.putTicket n t).orderSerial = d.orderSerial := rfl
@[simp] theorem Device.putTicket_settings (n : Nat) (t : Option Ticket) (x : Nat) : (d.putTicket n t).settings x = d.settings x := rfl
@[simp] theorem Device.putTicket_mapEntry (n : Nat) (t : Option Ticket) (x : Nat) : (d.putTicket n t).mapEntry x = d.mapEntry x := rfl
@[simp] theorem Device.putTicket_policy (n : Nat) (t : Option Ticket) (x : FaultClass) : (d.putTicket n t).policy x = d.policy x := rfl
@[simp] theorem Device.putTicket_tenantSettings (n : Nat) (t : Option Ticket) (x : Nat) : (d.putTicket n t).tenantSettings x = d.tenantSettings x := rfl
@[simp] theorem Device.putTicket_accountSettings (n : Nat) (t : Option Ticket) (x : Nat) : (d.putTicket n t).accountSettings x = d.accountSettings x := rfl
@[simp] theorem Device.putTicket_credentials (n : Nat) (t : Option Ticket) (x : Nat) : (d.putTicket n t).credentials x = d.credentials x := rfl
@[simp] theorem Device.putTicket_rates (n : Nat) (t : Option Ticket) (x : Nat) : (d.putTicket n t).rates x = d.rates x := rfl
@[simp] theorem Device.putTicket_terminalSettings (n : Nat) (t : Option Ticket) (x : Nat) : (d.putTicket n t).terminalSettings x = d.terminalSettings x := rfl
@[simp] theorem Device.putTicket_lineSettings (n : Nat) (t : Option Ticket) (x : Nat) : (d.putTicket n t).lineSettings x = d.lineSettings x := rfl
@[simp] theorem Device.putTicket_kindSettings (n : Nat) (t : Option Ticket) (x : Nat) : (d.putTicket n t).kindSettings x = d.kindSettings x := rfl

/-! ## `Device.putQueue` -/

@[simp] theorem Device.putQueue_mainPower (p : Nat) (q : List Nat) : (d.putQueue p q).mainPower = d.mainPower := rfl
@[simp] theorem Device.putQueue_rstnLow (p : Nat) (q : List Nat) : (d.putQueue p q).rstnLow = d.rstnLow := rfl
@[simp] theorem Device.putQueue_uptime (p : Nat) (q : List Nat) : (d.putQueue p q).uptime = d.uptime := rfl
@[simp] theorem Device.putQueue_wall (p : Nat) (q : List Nat) : (d.putQueue p q).wall = d.wall := rfl
@[simp] theorem Device.putQueue_wallValid (p : Nat) (q : List Nat) : (d.putQueue p q).wallValid = d.wallValid := rfl
@[simp] theorem Device.putQueue_markerValid (p : Nat) (q : List Nat) : (d.putQueue p q).markerValid = d.markerValid := rfl
@[simp] theorem Device.putQueue_comparator (p : Nat) (q : List Nat) : (d.putQueue p q).comparator = d.comparator := rfl
@[simp] theorem Device.putQueue_work (p : Nat) (q : List Nat) : (d.putQueue p q).work = d.work := rfl
@[simp] theorem Device.putQueue_store (p : Nat) (q : List Nat) : (d.putQueue p q).store = d.store := rfl
@[simp] theorem Device.putQueue_start (p : Nat) (q : List Nat) : (d.putQueue p q).start = d.start := rfl
@[simp] theorem Device.putQueue_guardLatch (p : Nat) (q : List Nat) : (d.putQueue p q).guardLatch = d.guardLatch := rfl
@[simp] theorem Device.putQueue_attention (p : Nat) (q : List Nat) : (d.putQueue p q).attention = d.attention := rfl
@[simp] theorem Device.putQueue_printers (p : Nat) (q : List Nat) : (d.putQueue p q).printers = d.printers := rfl
@[simp] theorem Device.putQueue_nextRollover (p : Nat) (q : List Nat) : (d.putQueue p q).nextRollover = d.nextRollover := rfl
@[simp] theorem Device.putQueue_callouts (p : Nat) (q : List Nat) : (d.putQueue p q).callouts = d.callouts := rfl
@[simp] theorem Device.putQueue_calloutSerial (p : Nat) (q : List Nat) : (d.putQueue p q).calloutSerial = d.calloutSerial := rfl
@[simp] theorem Device.putQueue_pendingList (p : Nat) (q : List Nat) : (d.putQueue p q).pendingList = d.pendingList := rfl
@[simp] theorem Device.putQueue_tenants (p : Nat) (q : List Nat) : (d.putQueue p q).tenants = d.tenants := rfl
@[simp] theorem Device.putQueue_accounts (p : Nat) (q : List Nat) : (d.putQueue p q).accounts = d.accounts := rfl
@[simp] theorem Device.putQueue_period (p : Nat) (q : List Nat) : (d.putQueue p q).period = d.period := rfl
@[simp] theorem Device.putQueue_exhaustions (p : Nat) (q : List Nat) : (d.putQueue p q).exhaustions = d.exhaustions := rfl
@[simp] theorem Device.putQueue_exhaustionsDropped (p : Nat) (q : List Nat) : (d.putQueue p q).exhaustionsDropped = d.exhaustionsDropped := rfl
@[simp] theorem Device.putQueue_tickets (p : Nat) (q : List Nat) : (d.putQueue p q).tickets = d.tickets := rfl
@[simp] theorem Device.putQueue_nextSequence (p : Nat) (q : List Nat) : (d.putQueue p q).nextSequence = d.nextSequence := rfl
@[simp] theorem Device.putQueue_queues (p : Nat) (q : List Nat) : (d.putQueue p q).queues = d.queues.put [] p q := rfl
@[simp] theorem Device.putQueue_grants (p : Nat) (q : List Nat) : (d.putQueue p q).grants = d.grants := rfl
@[simp] theorem Device.putQueue_waiting (p : Nat) (q : List Nat) : (d.putQueue p q).waiting = d.waiting := rfl
@[simp] theorem Device.putQueue_removals (p : Nat) (q : List Nat) : (d.putQueue p q).removals = d.removals := rfl
@[simp] theorem Device.putQueue_removalsDropped (p : Nat) (q : List Nat) : (d.putQueue p q).removalsDropped = d.removalsDropped := rfl
@[simp] theorem Device.putQueue_terminals (p : Nat) (q : List Nat) : (d.putQueue p q).terminals = d.terminals := rfl
@[simp] theorem Device.putQueue_lines (p : Nat) (q : List Nat) : (d.putQueue p q).lines = d.lines := rfl
@[simp] theorem Device.putQueue_stock (p : Nat) (q : List Nat) : (d.putQueue p q).stock = d.stock := rfl
@[simp] theorem Device.putQueue_orders (p : Nat) (q : List Nat) : (d.putQueue p q).orders = d.orders := rfl
@[simp] theorem Device.putQueue_orderSerial (p : Nat) (q : List Nat) : (d.putQueue p q).orderSerial = d.orderSerial := rfl
@[simp] theorem Device.putQueue_settings (p : Nat) (q : List Nat) (x : Nat) : (d.putQueue p q).settings x = d.settings x := rfl
@[simp] theorem Device.putQueue_mapEntry (p : Nat) (q : List Nat) (x : Nat) : (d.putQueue p q).mapEntry x = d.mapEntry x := rfl
@[simp] theorem Device.putQueue_policy (p : Nat) (q : List Nat) (x : FaultClass) : (d.putQueue p q).policy x = d.policy x := rfl
@[simp] theorem Device.putQueue_tenantSettings (p : Nat) (q : List Nat) (x : Nat) : (d.putQueue p q).tenantSettings x = d.tenantSettings x := rfl
@[simp] theorem Device.putQueue_accountSettings (p : Nat) (q : List Nat) (x : Nat) : (d.putQueue p q).accountSettings x = d.accountSettings x := rfl
@[simp] theorem Device.putQueue_credentials (p : Nat) (q : List Nat) (x : Nat) : (d.putQueue p q).credentials x = d.credentials x := rfl
@[simp] theorem Device.putQueue_rates (p : Nat) (q : List Nat) (x : Nat) : (d.putQueue p q).rates x = d.rates x := rfl
@[simp] theorem Device.putQueue_terminalSettings (p : Nat) (q : List Nat) (x : Nat) : (d.putQueue p q).terminalSettings x = d.terminalSettings x := rfl
@[simp] theorem Device.putQueue_lineSettings (p : Nat) (q : List Nat) (x : Nat) : (d.putQueue p q).lineSettings x = d.lineSettings x := rfl
@[simp] theorem Device.putQueue_kindSettings (p : Nat) (q : List Nat) (x : Nat) : (d.putQueue p q).kindSettings x = d.kindSettings x := rfl

/-! ## `Device.modTerminal` -/

@[simp] theorem Device.modTerminal_mainPower (i : Nat) (f : Terminal → Terminal) : (d.modTerminal i f).mainPower = d.mainPower := rfl
@[simp] theorem Device.modTerminal_rstnLow (i : Nat) (f : Terminal → Terminal) : (d.modTerminal i f).rstnLow = d.rstnLow := rfl
@[simp] theorem Device.modTerminal_uptime (i : Nat) (f : Terminal → Terminal) : (d.modTerminal i f).uptime = d.uptime := rfl
@[simp] theorem Device.modTerminal_wall (i : Nat) (f : Terminal → Terminal) : (d.modTerminal i f).wall = d.wall := rfl
@[simp] theorem Device.modTerminal_wallValid (i : Nat) (f : Terminal → Terminal) : (d.modTerminal i f).wallValid = d.wallValid := rfl
@[simp] theorem Device.modTerminal_markerValid (i : Nat) (f : Terminal → Terminal) : (d.modTerminal i f).markerValid = d.markerValid := rfl
@[simp] theorem Device.modTerminal_comparator (i : Nat) (f : Terminal → Terminal) : (d.modTerminal i f).comparator = d.comparator := rfl
@[simp] theorem Device.modTerminal_work (i : Nat) (f : Terminal → Terminal) : (d.modTerminal i f).work = d.work := rfl
@[simp] theorem Device.modTerminal_store (i : Nat) (f : Terminal → Terminal) : (d.modTerminal i f).store = d.store := rfl
@[simp] theorem Device.modTerminal_start (i : Nat) (f : Terminal → Terminal) : (d.modTerminal i f).start = d.start := rfl
@[simp] theorem Device.modTerminal_guardLatch (i : Nat) (f : Terminal → Terminal) : (d.modTerminal i f).guardLatch = d.guardLatch := rfl
@[simp] theorem Device.modTerminal_attention (i : Nat) (f : Terminal → Terminal) : (d.modTerminal i f).attention = d.attention := rfl
@[simp] theorem Device.modTerminal_printers (i : Nat) (f : Terminal → Terminal) : (d.modTerminal i f).printers = d.printers := rfl
@[simp] theorem Device.modTerminal_nextRollover (i : Nat) (f : Terminal → Terminal) : (d.modTerminal i f).nextRollover = d.nextRollover := rfl
@[simp] theorem Device.modTerminal_callouts (i : Nat) (f : Terminal → Terminal) : (d.modTerminal i f).callouts = d.callouts := rfl
@[simp] theorem Device.modTerminal_calloutSerial (i : Nat) (f : Terminal → Terminal) : (d.modTerminal i f).calloutSerial = d.calloutSerial := rfl
@[simp] theorem Device.modTerminal_pendingList (i : Nat) (f : Terminal → Terminal) : (d.modTerminal i f).pendingList = d.pendingList := rfl
@[simp] theorem Device.modTerminal_tenants (i : Nat) (f : Terminal → Terminal) : (d.modTerminal i f).tenants = d.tenants := rfl
@[simp] theorem Device.modTerminal_accounts (i : Nat) (f : Terminal → Terminal) : (d.modTerminal i f).accounts = d.accounts := rfl
@[simp] theorem Device.modTerminal_period (i : Nat) (f : Terminal → Terminal) : (d.modTerminal i f).period = d.period := rfl
@[simp] theorem Device.modTerminal_exhaustions (i : Nat) (f : Terminal → Terminal) : (d.modTerminal i f).exhaustions = d.exhaustions := rfl
@[simp] theorem Device.modTerminal_exhaustionsDropped (i : Nat) (f : Terminal → Terminal) : (d.modTerminal i f).exhaustionsDropped = d.exhaustionsDropped := rfl
@[simp] theorem Device.modTerminal_tickets (i : Nat) (f : Terminal → Terminal) : (d.modTerminal i f).tickets = d.tickets := rfl
@[simp] theorem Device.modTerminal_nextSequence (i : Nat) (f : Terminal → Terminal) : (d.modTerminal i f).nextSequence = d.nextSequence := rfl
@[simp] theorem Device.modTerminal_queues (i : Nat) (f : Terminal → Terminal) : (d.modTerminal i f).queues = d.queues := rfl
@[simp] theorem Device.modTerminal_grants (i : Nat) (f : Terminal → Terminal) : (d.modTerminal i f).grants = d.grants := rfl
@[simp] theorem Device.modTerminal_waiting (i : Nat) (f : Terminal → Terminal) : (d.modTerminal i f).waiting = d.waiting := rfl
@[simp] theorem Device.modTerminal_removals (i : Nat) (f : Terminal → Terminal) : (d.modTerminal i f).removals = d.removals := rfl
@[simp] theorem Device.modTerminal_removalsDropped (i : Nat) (f : Terminal → Terminal) : (d.modTerminal i f).removalsDropped = d.removalsDropped := rfl
@[simp] theorem Device.modTerminal_terminals (i : Nat) (f : Terminal → Terminal) : (d.modTerminal i f).terminals = d.terminals.put {} i (f (d.terminal i)) := rfl
@[simp] theorem Device.modTerminal_lines (i : Nat) (f : Terminal → Terminal) : (d.modTerminal i f).lines = d.lines := rfl
@[simp] theorem Device.modTerminal_stock (i : Nat) (f : Terminal → Terminal) : (d.modTerminal i f).stock = d.stock := rfl
@[simp] theorem Device.modTerminal_orders (i : Nat) (f : Terminal → Terminal) : (d.modTerminal i f).orders = d.orders := rfl
@[simp] theorem Device.modTerminal_orderSerial (i : Nat) (f : Terminal → Terminal) : (d.modTerminal i f).orderSerial = d.orderSerial := rfl
@[simp] theorem Device.modTerminal_settings (i : Nat) (f : Terminal → Terminal) (x : Nat) : (d.modTerminal i f).settings x = d.settings x := rfl
@[simp] theorem Device.modTerminal_mapEntry (i : Nat) (f : Terminal → Terminal) (x : Nat) : (d.modTerminal i f).mapEntry x = d.mapEntry x := rfl
@[simp] theorem Device.modTerminal_policy (i : Nat) (f : Terminal → Terminal) (x : FaultClass) : (d.modTerminal i f).policy x = d.policy x := rfl
@[simp] theorem Device.modTerminal_tenantSettings (i : Nat) (f : Terminal → Terminal) (x : Nat) : (d.modTerminal i f).tenantSettings x = d.tenantSettings x := rfl
@[simp] theorem Device.modTerminal_accountSettings (i : Nat) (f : Terminal → Terminal) (x : Nat) : (d.modTerminal i f).accountSettings x = d.accountSettings x := rfl
@[simp] theorem Device.modTerminal_credentials (i : Nat) (f : Terminal → Terminal) (x : Nat) : (d.modTerminal i f).credentials x = d.credentials x := rfl
@[simp] theorem Device.modTerminal_rates (i : Nat) (f : Terminal → Terminal) (x : Nat) : (d.modTerminal i f).rates x = d.rates x := rfl
@[simp] theorem Device.modTerminal_terminalSettings (i : Nat) (f : Terminal → Terminal) (x : Nat) : (d.modTerminal i f).terminalSettings x = d.terminalSettings x := rfl
@[simp] theorem Device.modTerminal_lineSettings (i : Nat) (f : Terminal → Terminal) (x : Nat) : (d.modTerminal i f).lineSettings x = d.lineSettings x := rfl
@[simp] theorem Device.modTerminal_kindSettings (i : Nat) (f : Terminal → Terminal) (x : Nat) : (d.modTerminal i f).kindSettings x = d.kindSettings x := rfl

/-! ## `Device.withTerminal` -/

@[simp] theorem Device.withTerminal_mainPower (i : Nat) (t : Terminal) : (d.withTerminal i t).mainPower = d.mainPower := rfl
@[simp] theorem Device.withTerminal_rstnLow (i : Nat) (t : Terminal) : (d.withTerminal i t).rstnLow = d.rstnLow := rfl
@[simp] theorem Device.withTerminal_uptime (i : Nat) (t : Terminal) : (d.withTerminal i t).uptime = d.uptime := rfl
@[simp] theorem Device.withTerminal_wall (i : Nat) (t : Terminal) : (d.withTerminal i t).wall = d.wall := rfl
@[simp] theorem Device.withTerminal_wallValid (i : Nat) (t : Terminal) : (d.withTerminal i t).wallValid = d.wallValid := rfl
@[simp] theorem Device.withTerminal_markerValid (i : Nat) (t : Terminal) : (d.withTerminal i t).markerValid = d.markerValid := rfl
@[simp] theorem Device.withTerminal_comparator (i : Nat) (t : Terminal) : (d.withTerminal i t).comparator = d.comparator := rfl
@[simp] theorem Device.withTerminal_work (i : Nat) (t : Terminal) : (d.withTerminal i t).work = d.work := rfl
@[simp] theorem Device.withTerminal_store (i : Nat) (t : Terminal) : (d.withTerminal i t).store = d.store := rfl
@[simp] theorem Device.withTerminal_start (i : Nat) (t : Terminal) : (d.withTerminal i t).start = d.start := rfl
@[simp] theorem Device.withTerminal_guardLatch (i : Nat) (t : Terminal) : (d.withTerminal i t).guardLatch = d.guardLatch := rfl
@[simp] theorem Device.withTerminal_attention (i : Nat) (t : Terminal) : (d.withTerminal i t).attention = d.attention := rfl
@[simp] theorem Device.withTerminal_printers (i : Nat) (t : Terminal) : (d.withTerminal i t).printers = d.printers := rfl
@[simp] theorem Device.withTerminal_nextRollover (i : Nat) (t : Terminal) : (d.withTerminal i t).nextRollover = d.nextRollover := rfl
@[simp] theorem Device.withTerminal_callouts (i : Nat) (t : Terminal) : (d.withTerminal i t).callouts = d.callouts := rfl
@[simp] theorem Device.withTerminal_calloutSerial (i : Nat) (t : Terminal) : (d.withTerminal i t).calloutSerial = d.calloutSerial := rfl
@[simp] theorem Device.withTerminal_pendingList (i : Nat) (t : Terminal) : (d.withTerminal i t).pendingList = d.pendingList := rfl
@[simp] theorem Device.withTerminal_tenants (i : Nat) (t : Terminal) : (d.withTerminal i t).tenants = d.tenants := rfl
@[simp] theorem Device.withTerminal_accounts (i : Nat) (t : Terminal) : (d.withTerminal i t).accounts = d.accounts := rfl
@[simp] theorem Device.withTerminal_period (i : Nat) (t : Terminal) : (d.withTerminal i t).period = d.period := rfl
@[simp] theorem Device.withTerminal_exhaustions (i : Nat) (t : Terminal) : (d.withTerminal i t).exhaustions = d.exhaustions := rfl
@[simp] theorem Device.withTerminal_exhaustionsDropped (i : Nat) (t : Terminal) : (d.withTerminal i t).exhaustionsDropped = d.exhaustionsDropped := rfl
@[simp] theorem Device.withTerminal_tickets (i : Nat) (t : Terminal) : (d.withTerminal i t).tickets = d.tickets := rfl
@[simp] theorem Device.withTerminal_nextSequence (i : Nat) (t : Terminal) : (d.withTerminal i t).nextSequence = d.nextSequence := rfl
@[simp] theorem Device.withTerminal_queues (i : Nat) (t : Terminal) : (d.withTerminal i t).queues = d.queues := rfl
@[simp] theorem Device.withTerminal_grants (i : Nat) (t : Terminal) : (d.withTerminal i t).grants = d.grants := rfl
@[simp] theorem Device.withTerminal_waiting (i : Nat) (t : Terminal) : (d.withTerminal i t).waiting = d.waiting := rfl
@[simp] theorem Device.withTerminal_removals (i : Nat) (t : Terminal) : (d.withTerminal i t).removals = d.removals := rfl
@[simp] theorem Device.withTerminal_removalsDropped (i : Nat) (t : Terminal) : (d.withTerminal i t).removalsDropped = d.removalsDropped := rfl
@[simp] theorem Device.withTerminal_terminals (i : Nat) (t : Terminal) : (d.withTerminal i t).terminals = d.terminals.put {} i t := rfl
@[simp] theorem Device.withTerminal_lines (i : Nat) (t : Terminal) : (d.withTerminal i t).lines = d.lines := rfl
@[simp] theorem Device.withTerminal_stock (i : Nat) (t : Terminal) : (d.withTerminal i t).stock = d.stock := rfl
@[simp] theorem Device.withTerminal_orders (i : Nat) (t : Terminal) : (d.withTerminal i t).orders = d.orders := rfl
@[simp] theorem Device.withTerminal_orderSerial (i : Nat) (t : Terminal) : (d.withTerminal i t).orderSerial = d.orderSerial := rfl
@[simp] theorem Device.withTerminal_settings (i : Nat) (t : Terminal) (x : Nat) : (d.withTerminal i t).settings x = d.settings x := rfl
@[simp] theorem Device.withTerminal_mapEntry (i : Nat) (t : Terminal) (x : Nat) : (d.withTerminal i t).mapEntry x = d.mapEntry x := rfl
@[simp] theorem Device.withTerminal_policy (i : Nat) (t : Terminal) (x : FaultClass) : (d.withTerminal i t).policy x = d.policy x := rfl
@[simp] theorem Device.withTerminal_tenantSettings (i : Nat) (t : Terminal) (x : Nat) : (d.withTerminal i t).tenantSettings x = d.tenantSettings x := rfl
@[simp] theorem Device.withTerminal_accountSettings (i : Nat) (t : Terminal) (x : Nat) : (d.withTerminal i t).accountSettings x = d.accountSettings x := rfl
@[simp] theorem Device.withTerminal_credentials (i : Nat) (t : Terminal) (x : Nat) : (d.withTerminal i t).credentials x = d.credentials x := rfl
@[simp] theorem Device.withTerminal_rates (i : Nat) (t : Terminal) (x : Nat) : (d.withTerminal i t).rates x = d.rates x := rfl
@[simp] theorem Device.withTerminal_terminalSettings (i : Nat) (t : Terminal) (x : Nat) : (d.withTerminal i t).terminalSettings x = d.terminalSettings x := rfl
@[simp] theorem Device.withTerminal_lineSettings (i : Nat) (t : Terminal) (x : Nat) : (d.withTerminal i t).lineSettings x = d.lineSettings x := rfl
@[simp] theorem Device.withTerminal_kindSettings (i : Nat) (t : Terminal) (x : Nat) : (d.withTerminal i t).kindSettings x = d.kindSettings x := rfl

/-! ## `Device.modLine` -/

@[simp] theorem Device.modLine_mainPower (n : Nat) (f : Line → Line) : (d.modLine n f).mainPower = d.mainPower := rfl
@[simp] theorem Device.modLine_rstnLow (n : Nat) (f : Line → Line) : (d.modLine n f).rstnLow = d.rstnLow := rfl
@[simp] theorem Device.modLine_uptime (n : Nat) (f : Line → Line) : (d.modLine n f).uptime = d.uptime := rfl
@[simp] theorem Device.modLine_wall (n : Nat) (f : Line → Line) : (d.modLine n f).wall = d.wall := rfl
@[simp] theorem Device.modLine_wallValid (n : Nat) (f : Line → Line) : (d.modLine n f).wallValid = d.wallValid := rfl
@[simp] theorem Device.modLine_markerValid (n : Nat) (f : Line → Line) : (d.modLine n f).markerValid = d.markerValid := rfl
@[simp] theorem Device.modLine_comparator (n : Nat) (f : Line → Line) : (d.modLine n f).comparator = d.comparator := rfl
@[simp] theorem Device.modLine_work (n : Nat) (f : Line → Line) : (d.modLine n f).work = d.work := rfl
@[simp] theorem Device.modLine_store (n : Nat) (f : Line → Line) : (d.modLine n f).store = d.store := rfl
@[simp] theorem Device.modLine_start (n : Nat) (f : Line → Line) : (d.modLine n f).start = d.start := rfl
@[simp] theorem Device.modLine_guardLatch (n : Nat) (f : Line → Line) : (d.modLine n f).guardLatch = d.guardLatch := rfl
@[simp] theorem Device.modLine_attention (n : Nat) (f : Line → Line) : (d.modLine n f).attention = d.attention := rfl
@[simp] theorem Device.modLine_printers (n : Nat) (f : Line → Line) : (d.modLine n f).printers = d.printers := rfl
@[simp] theorem Device.modLine_nextRollover (n : Nat) (f : Line → Line) : (d.modLine n f).nextRollover = d.nextRollover := rfl
@[simp] theorem Device.modLine_callouts (n : Nat) (f : Line → Line) : (d.modLine n f).callouts = d.callouts := rfl
@[simp] theorem Device.modLine_calloutSerial (n : Nat) (f : Line → Line) : (d.modLine n f).calloutSerial = d.calloutSerial := rfl
@[simp] theorem Device.modLine_pendingList (n : Nat) (f : Line → Line) : (d.modLine n f).pendingList = d.pendingList := rfl
@[simp] theorem Device.modLine_tenants (n : Nat) (f : Line → Line) : (d.modLine n f).tenants = d.tenants := rfl
@[simp] theorem Device.modLine_accounts (n : Nat) (f : Line → Line) : (d.modLine n f).accounts = d.accounts := rfl
@[simp] theorem Device.modLine_period (n : Nat) (f : Line → Line) : (d.modLine n f).period = d.period := rfl
@[simp] theorem Device.modLine_exhaustions (n : Nat) (f : Line → Line) : (d.modLine n f).exhaustions = d.exhaustions := rfl
@[simp] theorem Device.modLine_exhaustionsDropped (n : Nat) (f : Line → Line) : (d.modLine n f).exhaustionsDropped = d.exhaustionsDropped := rfl
@[simp] theorem Device.modLine_tickets (n : Nat) (f : Line → Line) : (d.modLine n f).tickets = d.tickets := rfl
@[simp] theorem Device.modLine_nextSequence (n : Nat) (f : Line → Line) : (d.modLine n f).nextSequence = d.nextSequence := rfl
@[simp] theorem Device.modLine_queues (n : Nat) (f : Line → Line) : (d.modLine n f).queues = d.queues := rfl
@[simp] theorem Device.modLine_grants (n : Nat) (f : Line → Line) : (d.modLine n f).grants = d.grants := rfl
@[simp] theorem Device.modLine_waiting (n : Nat) (f : Line → Line) : (d.modLine n f).waiting = d.waiting := rfl
@[simp] theorem Device.modLine_removals (n : Nat) (f : Line → Line) : (d.modLine n f).removals = d.removals := rfl
@[simp] theorem Device.modLine_removalsDropped (n : Nat) (f : Line → Line) : (d.modLine n f).removalsDropped = d.removalsDropped := rfl
@[simp] theorem Device.modLine_terminals (n : Nat) (f : Line → Line) : (d.modLine n f).terminals = d.terminals := rfl
@[simp] theorem Device.modLine_lines (n : Nat) (f : Line → Line) : (d.modLine n f).lines = d.lines.put {} n (f (d.line n)) := rfl
@[simp] theorem Device.modLine_stock (n : Nat) (f : Line → Line) : (d.modLine n f).stock = d.stock := rfl
@[simp] theorem Device.modLine_orders (n : Nat) (f : Line → Line) : (d.modLine n f).orders = d.orders := rfl
@[simp] theorem Device.modLine_orderSerial (n : Nat) (f : Line → Line) : (d.modLine n f).orderSerial = d.orderSerial := rfl
@[simp] theorem Device.modLine_settings (n : Nat) (f : Line → Line) (x : Nat) : (d.modLine n f).settings x = d.settings x := rfl
@[simp] theorem Device.modLine_mapEntry (n : Nat) (f : Line → Line) (x : Nat) : (d.modLine n f).mapEntry x = d.mapEntry x := rfl
@[simp] theorem Device.modLine_policy (n : Nat) (f : Line → Line) (x : FaultClass) : (d.modLine n f).policy x = d.policy x := rfl
@[simp] theorem Device.modLine_tenantSettings (n : Nat) (f : Line → Line) (x : Nat) : (d.modLine n f).tenantSettings x = d.tenantSettings x := rfl
@[simp] theorem Device.modLine_accountSettings (n : Nat) (f : Line → Line) (x : Nat) : (d.modLine n f).accountSettings x = d.accountSettings x := rfl
@[simp] theorem Device.modLine_credentials (n : Nat) (f : Line → Line) (x : Nat) : (d.modLine n f).credentials x = d.credentials x := rfl
@[simp] theorem Device.modLine_rates (n : Nat) (f : Line → Line) (x : Nat) : (d.modLine n f).rates x = d.rates x := rfl
@[simp] theorem Device.modLine_terminalSettings (n : Nat) (f : Line → Line) (x : Nat) : (d.modLine n f).terminalSettings x = d.terminalSettings x := rfl
@[simp] theorem Device.modLine_lineSettings (n : Nat) (f : Line → Line) (x : Nat) : (d.modLine n f).lineSettings x = d.lineSettings x := rfl
@[simp] theorem Device.modLine_kindSettings (n : Nat) (f : Line → Line) (x : Nat) : (d.modLine n f).kindSettings x = d.kindSettings x := rfl

/-! ## `Device.modKind` -/

@[simp] theorem Device.modKind_mainPower (k : Nat) (f : Kind → Kind) : (d.modKind k f).mainPower = d.mainPower := rfl
@[simp] theorem Device.modKind_rstnLow (k : Nat) (f : Kind → Kind) : (d.modKind k f).rstnLow = d.rstnLow := rfl
@[simp] theorem Device.modKind_uptime (k : Nat) (f : Kind → Kind) : (d.modKind k f).uptime = d.uptime := rfl
@[simp] theorem Device.modKind_wall (k : Nat) (f : Kind → Kind) : (d.modKind k f).wall = d.wall := rfl
@[simp] theorem Device.modKind_wallValid (k : Nat) (f : Kind → Kind) : (d.modKind k f).wallValid = d.wallValid := rfl
@[simp] theorem Device.modKind_markerValid (k : Nat) (f : Kind → Kind) : (d.modKind k f).markerValid = d.markerValid := rfl
@[simp] theorem Device.modKind_comparator (k : Nat) (f : Kind → Kind) : (d.modKind k f).comparator = d.comparator := rfl
@[simp] theorem Device.modKind_work (k : Nat) (f : Kind → Kind) : (d.modKind k f).work = d.work := rfl
@[simp] theorem Device.modKind_store (k : Nat) (f : Kind → Kind) : (d.modKind k f).store = d.store := rfl
@[simp] theorem Device.modKind_start (k : Nat) (f : Kind → Kind) : (d.modKind k f).start = d.start := rfl
@[simp] theorem Device.modKind_guardLatch (k : Nat) (f : Kind → Kind) : (d.modKind k f).guardLatch = d.guardLatch := rfl
@[simp] theorem Device.modKind_attention (k : Nat) (f : Kind → Kind) : (d.modKind k f).attention = d.attention := rfl
@[simp] theorem Device.modKind_printers (k : Nat) (f : Kind → Kind) : (d.modKind k f).printers = d.printers := rfl
@[simp] theorem Device.modKind_nextRollover (k : Nat) (f : Kind → Kind) : (d.modKind k f).nextRollover = d.nextRollover := rfl
@[simp] theorem Device.modKind_callouts (k : Nat) (f : Kind → Kind) : (d.modKind k f).callouts = d.callouts := rfl
@[simp] theorem Device.modKind_calloutSerial (k : Nat) (f : Kind → Kind) : (d.modKind k f).calloutSerial = d.calloutSerial := rfl
@[simp] theorem Device.modKind_pendingList (k : Nat) (f : Kind → Kind) : (d.modKind k f).pendingList = d.pendingList := rfl
@[simp] theorem Device.modKind_tenants (k : Nat) (f : Kind → Kind) : (d.modKind k f).tenants = d.tenants := rfl
@[simp] theorem Device.modKind_accounts (k : Nat) (f : Kind → Kind) : (d.modKind k f).accounts = d.accounts := rfl
@[simp] theorem Device.modKind_period (k : Nat) (f : Kind → Kind) : (d.modKind k f).period = d.period := rfl
@[simp] theorem Device.modKind_exhaustions (k : Nat) (f : Kind → Kind) : (d.modKind k f).exhaustions = d.exhaustions := rfl
@[simp] theorem Device.modKind_exhaustionsDropped (k : Nat) (f : Kind → Kind) : (d.modKind k f).exhaustionsDropped = d.exhaustionsDropped := rfl
@[simp] theorem Device.modKind_tickets (k : Nat) (f : Kind → Kind) : (d.modKind k f).tickets = d.tickets := rfl
@[simp] theorem Device.modKind_nextSequence (k : Nat) (f : Kind → Kind) : (d.modKind k f).nextSequence = d.nextSequence := rfl
@[simp] theorem Device.modKind_queues (k : Nat) (f : Kind → Kind) : (d.modKind k f).queues = d.queues := rfl
@[simp] theorem Device.modKind_grants (k : Nat) (f : Kind → Kind) : (d.modKind k f).grants = d.grants := rfl
@[simp] theorem Device.modKind_waiting (k : Nat) (f : Kind → Kind) : (d.modKind k f).waiting = d.waiting := rfl
@[simp] theorem Device.modKind_removals (k : Nat) (f : Kind → Kind) : (d.modKind k f).removals = d.removals := rfl
@[simp] theorem Device.modKind_removalsDropped (k : Nat) (f : Kind → Kind) : (d.modKind k f).removalsDropped = d.removalsDropped := rfl
@[simp] theorem Device.modKind_terminals (k : Nat) (f : Kind → Kind) : (d.modKind k f).terminals = d.terminals := rfl
@[simp] theorem Device.modKind_lines (k : Nat) (f : Kind → Kind) : (d.modKind k f).lines = d.lines := rfl
@[simp] theorem Device.modKind_stock (k : Nat) (f : Kind → Kind) : (d.modKind k f).stock = d.stock.put {} k (f (d.kind k)) := rfl
@[simp] theorem Device.modKind_orders (k : Nat) (f : Kind → Kind) : (d.modKind k f).orders = d.orders := rfl
@[simp] theorem Device.modKind_orderSerial (k : Nat) (f : Kind → Kind) : (d.modKind k f).orderSerial = d.orderSerial := rfl
@[simp] theorem Device.modKind_settings (k : Nat) (f : Kind → Kind) (x : Nat) : (d.modKind k f).settings x = d.settings x := rfl
@[simp] theorem Device.modKind_mapEntry (k : Nat) (f : Kind → Kind) (x : Nat) : (d.modKind k f).mapEntry x = d.mapEntry x := rfl
@[simp] theorem Device.modKind_policy (k : Nat) (f : Kind → Kind) (x : FaultClass) : (d.modKind k f).policy x = d.policy x := rfl
@[simp] theorem Device.modKind_tenantSettings (k : Nat) (f : Kind → Kind) (x : Nat) : (d.modKind k f).tenantSettings x = d.tenantSettings x := rfl
@[simp] theorem Device.modKind_accountSettings (k : Nat) (f : Kind → Kind) (x : Nat) : (d.modKind k f).accountSettings x = d.accountSettings x := rfl
@[simp] theorem Device.modKind_credentials (k : Nat) (f : Kind → Kind) (x : Nat) : (d.modKind k f).credentials x = d.credentials x := rfl
@[simp] theorem Device.modKind_rates (k : Nat) (f : Kind → Kind) (x : Nat) : (d.modKind k f).rates x = d.rates x := rfl
@[simp] theorem Device.modKind_terminalSettings (k : Nat) (f : Kind → Kind) (x : Nat) : (d.modKind k f).terminalSettings x = d.terminalSettings x := rfl
@[simp] theorem Device.modKind_lineSettings (k : Nat) (f : Kind → Kind) (x : Nat) : (d.modKind k f).lineSettings x = d.lineSettings x := rfl
@[simp] theorem Device.modKind_kindSettings (k : Nat) (f : Kind → Kind) (x : Nat) : (d.modKind k f).kindSettings x = d.kindSettings x := rfl

/-! ## `Device.putOrder` -/

@[simp] theorem Device.putOrder_mainPower (n : Nat) (o : Option Order) : (d.putOrder n o).mainPower = d.mainPower := rfl
@[simp] theorem Device.putOrder_rstnLow (n : Nat) (o : Option Order) : (d.putOrder n o).rstnLow = d.rstnLow := rfl
@[simp] theorem Device.putOrder_uptime (n : Nat) (o : Option Order) : (d.putOrder n o).uptime = d.uptime := rfl
@[simp] theorem Device.putOrder_wall (n : Nat) (o : Option Order) : (d.putOrder n o).wall = d.wall := rfl
@[simp] theorem Device.putOrder_wallValid (n : Nat) (o : Option Order) : (d.putOrder n o).wallValid = d.wallValid := rfl
@[simp] theorem Device.putOrder_markerValid (n : Nat) (o : Option Order) : (d.putOrder n o).markerValid = d.markerValid := rfl
@[simp] theorem Device.putOrder_comparator (n : Nat) (o : Option Order) : (d.putOrder n o).comparator = d.comparator := rfl
@[simp] theorem Device.putOrder_work (n : Nat) (o : Option Order) : (d.putOrder n o).work = d.work := rfl
@[simp] theorem Device.putOrder_store (n : Nat) (o : Option Order) : (d.putOrder n o).store = d.store := rfl
@[simp] theorem Device.putOrder_start (n : Nat) (o : Option Order) : (d.putOrder n o).start = d.start := rfl
@[simp] theorem Device.putOrder_guardLatch (n : Nat) (o : Option Order) : (d.putOrder n o).guardLatch = d.guardLatch := rfl
@[simp] theorem Device.putOrder_attention (n : Nat) (o : Option Order) : (d.putOrder n o).attention = d.attention := rfl
@[simp] theorem Device.putOrder_printers (n : Nat) (o : Option Order) : (d.putOrder n o).printers = d.printers := rfl
@[simp] theorem Device.putOrder_nextRollover (n : Nat) (o : Option Order) : (d.putOrder n o).nextRollover = d.nextRollover := rfl
@[simp] theorem Device.putOrder_callouts (n : Nat) (o : Option Order) : (d.putOrder n o).callouts = d.callouts := rfl
@[simp] theorem Device.putOrder_calloutSerial (n : Nat) (o : Option Order) : (d.putOrder n o).calloutSerial = d.calloutSerial := rfl
@[simp] theorem Device.putOrder_pendingList (n : Nat) (o : Option Order) : (d.putOrder n o).pendingList = d.pendingList := rfl
@[simp] theorem Device.putOrder_tenants (n : Nat) (o : Option Order) : (d.putOrder n o).tenants = d.tenants := rfl
@[simp] theorem Device.putOrder_accounts (n : Nat) (o : Option Order) : (d.putOrder n o).accounts = d.accounts := rfl
@[simp] theorem Device.putOrder_period (n : Nat) (o : Option Order) : (d.putOrder n o).period = d.period := rfl
@[simp] theorem Device.putOrder_exhaustions (n : Nat) (o : Option Order) : (d.putOrder n o).exhaustions = d.exhaustions := rfl
@[simp] theorem Device.putOrder_exhaustionsDropped (n : Nat) (o : Option Order) : (d.putOrder n o).exhaustionsDropped = d.exhaustionsDropped := rfl
@[simp] theorem Device.putOrder_tickets (n : Nat) (o : Option Order) : (d.putOrder n o).tickets = d.tickets := rfl
@[simp] theorem Device.putOrder_nextSequence (n : Nat) (o : Option Order) : (d.putOrder n o).nextSequence = d.nextSequence := rfl
@[simp] theorem Device.putOrder_queues (n : Nat) (o : Option Order) : (d.putOrder n o).queues = d.queues := rfl
@[simp] theorem Device.putOrder_grants (n : Nat) (o : Option Order) : (d.putOrder n o).grants = d.grants := rfl
@[simp] theorem Device.putOrder_waiting (n : Nat) (o : Option Order) : (d.putOrder n o).waiting = d.waiting := rfl
@[simp] theorem Device.putOrder_removals (n : Nat) (o : Option Order) : (d.putOrder n o).removals = d.removals := rfl
@[simp] theorem Device.putOrder_removalsDropped (n : Nat) (o : Option Order) : (d.putOrder n o).removalsDropped = d.removalsDropped := rfl
@[simp] theorem Device.putOrder_terminals (n : Nat) (o : Option Order) : (d.putOrder n o).terminals = d.terminals := rfl
@[simp] theorem Device.putOrder_lines (n : Nat) (o : Option Order) : (d.putOrder n o).lines = d.lines := rfl
@[simp] theorem Device.putOrder_stock (n : Nat) (o : Option Order) : (d.putOrder n o).stock = d.stock := rfl
@[simp] theorem Device.putOrder_orders (n : Nat) (o : Option Order) : (d.putOrder n o).orders = d.orders.put none n o := rfl
@[simp] theorem Device.putOrder_orderSerial (n : Nat) (o : Option Order) : (d.putOrder n o).orderSerial = d.orderSerial := rfl
@[simp] theorem Device.putOrder_settings (n : Nat) (o : Option Order) (x : Nat) : (d.putOrder n o).settings x = d.settings x := rfl
@[simp] theorem Device.putOrder_mapEntry (n : Nat) (o : Option Order) (x : Nat) : (d.putOrder n o).mapEntry x = d.mapEntry x := rfl
@[simp] theorem Device.putOrder_policy (n : Nat) (o : Option Order) (x : FaultClass) : (d.putOrder n o).policy x = d.policy x := rfl
@[simp] theorem Device.putOrder_tenantSettings (n : Nat) (o : Option Order) (x : Nat) : (d.putOrder n o).tenantSettings x = d.tenantSettings x := rfl
@[simp] theorem Device.putOrder_accountSettings (n : Nat) (o : Option Order) (x : Nat) : (d.putOrder n o).accountSettings x = d.accountSettings x := rfl
@[simp] theorem Device.putOrder_credentials (n : Nat) (o : Option Order) (x : Nat) : (d.putOrder n o).credentials x = d.credentials x := rfl
@[simp] theorem Device.putOrder_rates (n : Nat) (o : Option Order) (x : Nat) : (d.putOrder n o).rates x = d.rates x := rfl
@[simp] theorem Device.putOrder_terminalSettings (n : Nat) (o : Option Order) (x : Nat) : (d.putOrder n o).terminalSettings x = d.terminalSettings x := rfl
@[simp] theorem Device.putOrder_lineSettings (n : Nat) (o : Option Order) (x : Nat) : (d.putOrder n o).lineSettings x = d.lineSettings x := rfl
@[simp] theorem Device.putOrder_kindSettings (n : Nat) (o : Option Order) (x : Nat) : (d.putOrder n o).kindSettings x = d.kindSettings x := rfl

/-! ## `Device.clearFlag` -/

@[simp] theorem Device.clearFlag_mainPower (f : Flag) (i : Nat) : (d.clearFlag f i).mainPower = d.mainPower := rfl
@[simp] theorem Device.clearFlag_rstnLow (f : Flag) (i : Nat) : (d.clearFlag f i).rstnLow = d.rstnLow := rfl
@[simp] theorem Device.clearFlag_uptime (f : Flag) (i : Nat) : (d.clearFlag f i).uptime = d.uptime := rfl
@[simp] theorem Device.clearFlag_wall (f : Flag) (i : Nat) : (d.clearFlag f i).wall = d.wall := rfl
@[simp] theorem Device.clearFlag_wallValid (f : Flag) (i : Nat) : (d.clearFlag f i).wallValid = d.wallValid := rfl
@[simp] theorem Device.clearFlag_markerValid (f : Flag) (i : Nat) : (d.clearFlag f i).markerValid = d.markerValid := rfl
@[simp] theorem Device.clearFlag_comparator (f : Flag) (i : Nat) : (d.clearFlag f i).comparator = d.comparator := rfl
@[simp] theorem Device.clearFlag_work (f : Flag) (i : Nat) : (d.clearFlag f i).work = d.work := rfl
@[simp] theorem Device.clearFlag_store (f : Flag) (i : Nat) : (d.clearFlag f i).store = d.store := rfl
@[simp] theorem Device.clearFlag_start (f : Flag) (i : Nat) : (d.clearFlag f i).start = d.start := rfl
@[simp] theorem Device.clearFlag_guardLatch (f : Flag) (i : Nat) : (d.clearFlag f i).guardLatch = d.guardLatch := rfl
@[simp] theorem Device.clearFlag_printers (f : Flag) (i : Nat) : (d.clearFlag f i).printers = d.printers := rfl
@[simp] theorem Device.clearFlag_nextRollover (f : Flag) (i : Nat) : (d.clearFlag f i).nextRollover = d.nextRollover := rfl
@[simp] theorem Device.clearFlag_callouts (f : Flag) (i : Nat) : (d.clearFlag f i).callouts = d.callouts := rfl
@[simp] theorem Device.clearFlag_calloutSerial (f : Flag) (i : Nat) : (d.clearFlag f i).calloutSerial = d.calloutSerial := rfl
@[simp] theorem Device.clearFlag_pendingList (f : Flag) (i : Nat) : (d.clearFlag f i).pendingList = d.pendingList := rfl
@[simp] theorem Device.clearFlag_tenants (f : Flag) (i : Nat) : (d.clearFlag f i).tenants = d.tenants := rfl
@[simp] theorem Device.clearFlag_accounts (f : Flag) (i : Nat) : (d.clearFlag f i).accounts = d.accounts := rfl
@[simp] theorem Device.clearFlag_period (f : Flag) (i : Nat) : (d.clearFlag f i).period = d.period := rfl
@[simp] theorem Device.clearFlag_exhaustions (f : Flag) (i : Nat) : (d.clearFlag f i).exhaustions = d.exhaustions := rfl
@[simp] theorem Device.clearFlag_exhaustionsDropped (f : Flag) (i : Nat) : (d.clearFlag f i).exhaustionsDropped = d.exhaustionsDropped := rfl
@[simp] theorem Device.clearFlag_tickets (f : Flag) (i : Nat) : (d.clearFlag f i).tickets = d.tickets := rfl
@[simp] theorem Device.clearFlag_nextSequence (f : Flag) (i : Nat) : (d.clearFlag f i).nextSequence = d.nextSequence := rfl
@[simp] theorem Device.clearFlag_queues (f : Flag) (i : Nat) : (d.clearFlag f i).queues = d.queues := rfl
@[simp] theorem Device.clearFlag_grants (f : Flag) (i : Nat) : (d.clearFlag f i).grants = d.grants := rfl
@[simp] theorem Device.clearFlag_waiting (f : Flag) (i : Nat) : (d.clearFlag f i).waiting = d.waiting := rfl
@[simp] theorem Device.clearFlag_removals (f : Flag) (i : Nat) : (d.clearFlag f i).removals = d.removals := rfl
@[simp] theorem Device.clearFlag_removalsDropped (f : Flag) (i : Nat) : (d.clearFlag f i).removalsDropped = d.removalsDropped := rfl
@[simp] theorem Device.clearFlag_terminals (f : Flag) (i : Nat) : (d.clearFlag f i).terminals = d.terminals := rfl
@[simp] theorem Device.clearFlag_lines (f : Flag) (i : Nat) : (d.clearFlag f i).lines = d.lines := rfl
@[simp] theorem Device.clearFlag_stock (f : Flag) (i : Nat) : (d.clearFlag f i).stock = d.stock := rfl
@[simp] theorem Device.clearFlag_orders (f : Flag) (i : Nat) : (d.clearFlag f i).orders = d.orders := rfl
@[simp] theorem Device.clearFlag_orderSerial (f : Flag) (i : Nat) : (d.clearFlag f i).orderSerial = d.orderSerial := rfl
@[simp] theorem Device.clearFlag_settings (f : Flag) (i : Nat) (x : Nat) : (d.clearFlag f i).settings x = d.settings x := rfl
@[simp] theorem Device.clearFlag_mapEntry (f : Flag) (i : Nat) (x : Nat) : (d.clearFlag f i).mapEntry x = d.mapEntry x := rfl
@[simp] theorem Device.clearFlag_policy (f : Flag) (i : Nat) (x : FaultClass) : (d.clearFlag f i).policy x = d.policy x := rfl
@[simp] theorem Device.clearFlag_tenantSettings (f : Flag) (i : Nat) (x : Nat) : (d.clearFlag f i).tenantSettings x = d.tenantSettings x := rfl
@[simp] theorem Device.clearFlag_accountSettings (f : Flag) (i : Nat) (x : Nat) : (d.clearFlag f i).accountSettings x = d.accountSettings x := rfl
@[simp] theorem Device.clearFlag_credentials (f : Flag) (i : Nat) (x : Nat) : (d.clearFlag f i).credentials x = d.credentials x := rfl
@[simp] theorem Device.clearFlag_rates (f : Flag) (i : Nat) (x : Nat) : (d.clearFlag f i).rates x = d.rates x := rfl
@[simp] theorem Device.clearFlag_terminalSettings (f : Flag) (i : Nat) (x : Nat) : (d.clearFlag f i).terminalSettings x = d.terminalSettings x := rfl
@[simp] theorem Device.clearFlag_lineSettings (f : Flag) (i : Nat) (x : Nat) : (d.clearFlag f i).lineSettings x = d.lineSettings x := rfl
@[simp] theorem Device.clearFlag_kindSettings (f : Flag) (i : Nat) (x : Nat) : (d.clearFlag f i).kindSettings x = d.kindSettings x := rfl

/-! ## `Device.raise` -/

theorem Device.raise_with (f : Flag) (i : Nat) : d.raise f i = { d with attention := (d.raise f i).attention } := by
  unfold Device.raise; split <;> rfl
@[simp] theorem Device.raise_mainPower (f : Flag) (i : Nat) : (d.raise f i).mainPower = d.mainPower := congrArg (·.mainPower) (d.raise_with f i)
@[simp] theorem Device.raise_rstnLow (f : Flag) (i : Nat) : (d.raise f i).rstnLow = d.rstnLow := congrArg (·.rstnLow) (d.raise_with f i)
@[simp] theorem Device.raise_uptime (f : Flag) (i : Nat) : (d.raise f i).uptime = d.uptime := congrArg (·.uptime) (d.raise_with f i)
@[simp] theorem Device.raise_wall (f : Flag) (i : Nat) : (d.raise f i).wall = d.wall := congrArg (·.wall) (d.raise_with f i)
@[simp] theorem Device.raise_wallValid (f : Flag) (i : Nat) : (d.raise f i).wallValid = d.wallValid := congrArg (·.wallValid) (d.raise_with f i)
@[simp] theorem Device.raise_markerValid (f : Flag) (i : Nat) : (d.raise f i).markerValid = d.markerValid := congrArg (·.markerValid) (d.raise_with f i)
@[simp] theorem Device.raise_comparator (f : Flag) (i : Nat) : (d.raise f i).comparator = d.comparator := congrArg (·.comparator) (d.raise_with f i)
@[simp] theorem Device.raise_work (f : Flag) (i : Nat) : (d.raise f i).work = d.work := congrArg (·.work) (d.raise_with f i)
@[simp] theorem Device.raise_store (f : Flag) (i : Nat) : (d.raise f i).store = d.store := congrArg (·.store) (d.raise_with f i)
@[simp] theorem Device.raise_start (f : Flag) (i : Nat) : (d.raise f i).start = d.start := congrArg (·.start) (d.raise_with f i)
@[simp] theorem Device.raise_guardLatch (f : Flag) (i : Nat) : (d.raise f i).guardLatch = d.guardLatch := congrArg (·.guardLatch) (d.raise_with f i)
@[simp] theorem Device.raise_printers (f : Flag) (i : Nat) : (d.raise f i).printers = d.printers := congrArg (·.printers) (d.raise_with f i)
@[simp] theorem Device.raise_nextRollover (f : Flag) (i : Nat) : (d.raise f i).nextRollover = d.nextRollover := congrArg (·.nextRollover) (d.raise_with f i)
@[simp] theorem Device.raise_callouts (f : Flag) (i : Nat) : (d.raise f i).callouts = d.callouts := congrArg (·.callouts) (d.raise_with f i)
@[simp] theorem Device.raise_calloutSerial (f : Flag) (i : Nat) : (d.raise f i).calloutSerial = d.calloutSerial := congrArg (·.calloutSerial) (d.raise_with f i)
@[simp] theorem Device.raise_pendingList (f : Flag) (i : Nat) : (d.raise f i).pendingList = d.pendingList := congrArg (·.pendingList) (d.raise_with f i)
@[simp] theorem Device.raise_tenants (f : Flag) (i : Nat) : (d.raise f i).tenants = d.tenants := congrArg (·.tenants) (d.raise_with f i)
@[simp] theorem Device.raise_accounts (f : Flag) (i : Nat) : (d.raise f i).accounts = d.accounts := congrArg (·.accounts) (d.raise_with f i)
@[simp] theorem Device.raise_period (f : Flag) (i : Nat) : (d.raise f i).period = d.period := congrArg (·.period) (d.raise_with f i)
@[simp] theorem Device.raise_exhaustions (f : Flag) (i : Nat) : (d.raise f i).exhaustions = d.exhaustions := congrArg (·.exhaustions) (d.raise_with f i)
@[simp] theorem Device.raise_exhaustionsDropped (f : Flag) (i : Nat) : (d.raise f i).exhaustionsDropped = d.exhaustionsDropped := congrArg (·.exhaustionsDropped) (d.raise_with f i)
@[simp] theorem Device.raise_tickets (f : Flag) (i : Nat) : (d.raise f i).tickets = d.tickets := congrArg (·.tickets) (d.raise_with f i)
@[simp] theorem Device.raise_nextSequence (f : Flag) (i : Nat) : (d.raise f i).nextSequence = d.nextSequence := congrArg (·.nextSequence) (d.raise_with f i)
@[simp] theorem Device.raise_queues (f : Flag) (i : Nat) : (d.raise f i).queues = d.queues := congrArg (·.queues) (d.raise_with f i)
@[simp] theorem Device.raise_grants (f : Flag) (i : Nat) : (d.raise f i).grants = d.grants := congrArg (·.grants) (d.raise_with f i)
@[simp] theorem Device.raise_waiting (f : Flag) (i : Nat) : (d.raise f i).waiting = d.waiting := congrArg (·.waiting) (d.raise_with f i)
@[simp] theorem Device.raise_removals (f : Flag) (i : Nat) : (d.raise f i).removals = d.removals := congrArg (·.removals) (d.raise_with f i)
@[simp] theorem Device.raise_removalsDropped (f : Flag) (i : Nat) : (d.raise f i).removalsDropped = d.removalsDropped := congrArg (·.removalsDropped) (d.raise_with f i)
@[simp] theorem Device.raise_terminals (f : Flag) (i : Nat) : (d.raise f i).terminals = d.terminals := congrArg (·.terminals) (d.raise_with f i)
@[simp] theorem Device.raise_lines (f : Flag) (i : Nat) : (d.raise f i).lines = d.lines := congrArg (·.lines) (d.raise_with f i)
@[simp] theorem Device.raise_stock (f : Flag) (i : Nat) : (d.raise f i).stock = d.stock := congrArg (·.stock) (d.raise_with f i)
@[simp] theorem Device.raise_orders (f : Flag) (i : Nat) : (d.raise f i).orders = d.orders := congrArg (·.orders) (d.raise_with f i)
@[simp] theorem Device.raise_orderSerial (f : Flag) (i : Nat) : (d.raise f i).orderSerial = d.orderSerial := congrArg (·.orderSerial) (d.raise_with f i)
@[simp] theorem Device.raise_settings (f : Flag) (i : Nat) (x : Nat) : (d.raise f i).settings x = d.settings x := by simp only [Device.settings, Device.raise_work]
@[simp] theorem Device.raise_mapEntry (f : Flag) (i : Nat) (x : Nat) : (d.raise f i).mapEntry x = d.mapEntry x := by simp only [Device.mapEntry, Device.raise_work]
@[simp] theorem Device.raise_policy (f : Flag) (i : Nat) (x : FaultClass) : (d.raise f i).policy x = d.policy x := by simp only [Device.policy, Device.raise_work]
@[simp] theorem Device.raise_tenantSettings (f : Flag) (i : Nat) (x : Nat) : (d.raise f i).tenantSettings x = d.tenantSettings x := by simp only [Device.tenantSettings, Device.raise_work]
@[simp] theorem Device.raise_accountSettings (f : Flag) (i : Nat) (x : Nat) : (d.raise f i).accountSettings x = d.accountSettings x := by simp only [Device.accountSettings, Device.raise_work]
@[simp] theorem Device.raise_credentials (f : Flag) (i : Nat) (x : Nat) : (d.raise f i).credentials x = d.credentials x := by simp only [Device.credentials, Device.raise_work]
@[simp] theorem Device.raise_rates (f : Flag) (i : Nat) (x : Nat) : (d.raise f i).rates x = d.rates x := by simp only [Device.rates, Device.raise_work]
@[simp] theorem Device.raise_terminalSettings (f : Flag) (i : Nat) (x : Nat) : (d.raise f i).terminalSettings x = d.terminalSettings x := by simp only [Device.terminalSettings, Device.raise_work]
@[simp] theorem Device.raise_lineSettings (f : Flag) (i : Nat) (x : Nat) : (d.raise f i).lineSettings x = d.lineSettings x := by simp only [Device.lineSettings, Device.raise_work]
@[simp] theorem Device.raise_kindSettings (f : Flag) (i : Nat) (x : Nat) : (d.raise f i).kindSettings x = d.kindSettings x := by simp only [Device.kindSettings, Device.raise_work]

/-! ## Reading a record back -/

@[simp] theorem Device.putPrinter_printer (p : Nat) (r : Printer) : (d.putPrinter p r).printer p = r := Table.get_put_same ..
@[simp] theorem Device.putPrinter_printer_ne (p : Nat) (r : Printer) (m : Nat) (h : m ≠ p) : (d.putPrinter p r).printer m = d.printer m :=
  Table.get_put_ne _ _ _ h
@[simp] theorem Device.modPrinter_printer (p : Nat) (f : Printer → Printer) : (d.modPrinter p f).printer p = f (d.printer p) := Table.get_put_same ..
@[simp] theorem Device.modPrinter_printer_ne (p : Nat) (f : Printer → Printer) (m : Nat) (h : m ≠ p) : (d.modPrinter p f).printer m = d.printer m :=
  Table.get_put_ne _ _ _ h
@[simp] theorem Device.modTenant_tenantTotals (n : Nat) (f : TenantTotals → TenantTotals) : (d.modTenant n f).tenantTotals n = f (d.tenantTotals n) := Table.get_put_same ..
@[simp] theorem Device.modTenant_tenantTotals_ne (n : Nat) (f : TenantTotals → TenantTotals) (m : Nat) (h : m ≠ n) : (d.modTenant n f).tenantTotals m = d.tenantTotals m :=
  Table.get_put_ne _ _ _ h
@[simp] theorem Device.modAccount_accountTotals (n : Nat) (f : AccountTotals → AccountTotals) : (d.modAccount n f).accountTotals n = f (d.accountTotals n) := Table.get_put_same ..
@[simp] theorem Device.modAccount_accountTotals_ne (n : Nat) (f : AccountTotals → AccountTotals) (m : Nat) (h : m ≠ n) : (d.modAccount n f).accountTotals m = d.accountTotals m :=
  Table.get_put_ne _ _ _ h
@[simp] theorem Device.putCallout_callout (n : Nat) (c : Option Callout) : (d.putCallout n c).callout n = c := Table.get_put_same ..
@[simp] theorem Device.putCallout_callout_ne (n : Nat) (c : Option Callout) (m : Nat) (h : m ≠ n) : (d.putCallout n c).callout m = d.callout m :=
  Table.get_put_ne _ _ _ h
@[simp] theorem Device.putTicket_ticket (n : Nat) (t : Option Ticket) : (d.putTicket n t).ticket n = t := Table.get_put_same ..
@[simp] theorem Device.putTicket_ticket_ne (n : Nat) (t : Option Ticket) (m : Nat) (h : m ≠ n) : (d.putTicket n t).ticket m = d.ticket m :=
  Table.get_put_ne _ _ _ h
@[simp] theorem Device.putQueue_queue (p : Nat) (q : List Nat) : (d.putQueue p q).queue p = q := Table.get_put_same ..
@[simp] theorem Device.putQueue_queue_ne (p : Nat) (q : List Nat) (m : Nat) (h : m ≠ p) : (d.putQueue p q).queue m = d.queue m :=
  Table.get_put_ne _ _ _ h
@[simp] theorem Device.modTerminal_terminal (i : Nat) (f : Terminal → Terminal) : (d.modTerminal i f).terminal i = f (d.terminal i) := Table.get_put_same ..
@[simp] theorem Device.modTerminal_terminal_ne (i : Nat) (f : Terminal → Terminal) (m : Nat) (h : m ≠ i) : (d.modTerminal i f).terminal m = d.terminal m :=
  Table.get_put_ne _ _ _ h
@[simp] theorem Device.withTerminal_terminal (i : Nat) (t : Terminal) : (d.withTerminal i t).terminal i = t := Table.get_put_same ..
@[simp] theorem Device.withTerminal_terminal_ne (i : Nat) (t : Terminal) (m : Nat) (h : m ≠ i) : (d.withTerminal i t).terminal m = d.terminal m :=
  Table.get_put_ne _ _ _ h
@[simp] theorem Device.modLine_line (n : Nat) (f : Line → Line) : (d.modLine n f).line n = f (d.line n) := Table.get_put_same ..
@[simp] theorem Device.modLine_line_ne (n : Nat) (f : Line → Line) (m : Nat) (h : m ≠ n) : (d.modLine n f).line m = d.line m :=
  Table.get_put_ne _ _ _ h
@[simp] theorem Device.modKind_kind (k : Nat) (f : Kind → Kind) : (d.modKind k f).kind k = f (d.kind k) := Table.get_put_same ..
@[simp] theorem Device.modKind_kind_ne (k : Nat) (f : Kind → Kind) (m : Nat) (h : m ≠ k) : (d.modKind k f).kind m = d.kind m :=
  Table.get_put_ne _ _ _ h
@[simp] theorem Device.putOrder_order (n : Nat) (o : Option Order) : (d.putOrder n o).order n = o := Table.get_put_same ..
@[simp] theorem Device.putOrder_order_ne (n : Nat) (o : Option Order) (m : Nat) (h : m ≠ n) : (d.putOrder n o).order m = d.order m :=
  Table.get_put_ne _ _ _ h

/-! ## Records of another table -/

@[simp] theorem Device.putPrinter_tenantTotals (p : Nat) (r : Printer) (x : Nat) : (d.putPrinter p r).tenantTotals x = d.tenantTotals x := rfl
@[simp] theorem Device.putPrinter_accountTotals (p : Nat) (r : Printer) (x : Nat) : (d.putPrinter p r).accountTotals x = d.accountTotals x := rfl
@[simp] theorem Device.putPrinter_callout (p : Nat) (r : Printer) (x : Nat) : (d.putPrinter p r).callout x = d.callout x := rfl
@[simp] theorem Device.putPrinter_ticket (p : Nat) (r : Printer) (x : Nat) : (d.putPrinter p r).ticket x = d.ticket x := rfl
@[simp] theorem Device.putPrinter_queue (p : Nat) (r : Printer) (x : Nat) : (d.putPrinter p r).queue x = d.queue x := rfl
@[simp] theorem Device.putPrinter_terminal (p : Nat) (r : Printer) (x : Nat) : (d.putPrinter p r).terminal x = d.terminal x := rfl
@[simp] theorem Device.putPrinter_line (p : Nat) (r : Printer) (x : Nat) : (d.putPrinter p r).line x = d.line x := rfl
@[simp] theorem Device.putPrinter_kind (p : Nat) (r : Printer) (x : Nat) : (d.putPrinter p r).kind x = d.kind x := rfl
@[simp] theorem Device.putPrinter_order (p : Nat) (r : Printer) (x : Nat) : (d.putPrinter p r).order x = d.order x := rfl
@[simp] theorem Device.modPrinter_tenantTotals (p : Nat) (f : Printer → Printer) (x : Nat) : (d.modPrinter p f).tenantTotals x = d.tenantTotals x := rfl
@[simp] theorem Device.modPrinter_accountTotals (p : Nat) (f : Printer → Printer) (x : Nat) : (d.modPrinter p f).accountTotals x = d.accountTotals x := rfl
@[simp] theorem Device.modPrinter_callout (p : Nat) (f : Printer → Printer) (x : Nat) : (d.modPrinter p f).callout x = d.callout x := rfl
@[simp] theorem Device.modPrinter_ticket (p : Nat) (f : Printer → Printer) (x : Nat) : (d.modPrinter p f).ticket x = d.ticket x := rfl
@[simp] theorem Device.modPrinter_queue (p : Nat) (f : Printer → Printer) (x : Nat) : (d.modPrinter p f).queue x = d.queue x := rfl
@[simp] theorem Device.modPrinter_terminal (p : Nat) (f : Printer → Printer) (x : Nat) : (d.modPrinter p f).terminal x = d.terminal x := rfl
@[simp] theorem Device.modPrinter_line (p : Nat) (f : Printer → Printer) (x : Nat) : (d.modPrinter p f).line x = d.line x := rfl
@[simp] theorem Device.modPrinter_kind (p : Nat) (f : Printer → Printer) (x : Nat) : (d.modPrinter p f).kind x = d.kind x := rfl
@[simp] theorem Device.modPrinter_order (p : Nat) (f : Printer → Printer) (x : Nat) : (d.modPrinter p f).order x = d.order x := rfl
@[simp] theorem Device.modTenant_printer (n : Nat) (f : TenantTotals → TenantTotals) (x : Nat) : (d.modTenant n f).printer x = d.printer x := rfl
@[simp] theorem Device.modTenant_accountTotals (n : Nat) (f : TenantTotals → TenantTotals) (x : Nat) : (d.modTenant n f).accountTotals x = d.accountTotals x := rfl
@[simp] theorem Device.modTenant_callout (n : Nat) (f : TenantTotals → TenantTotals) (x : Nat) : (d.modTenant n f).callout x = d.callout x := rfl
@[simp] theorem Device.modTenant_ticket (n : Nat) (f : TenantTotals → TenantTotals) (x : Nat) : (d.modTenant n f).ticket x = d.ticket x := rfl
@[simp] theorem Device.modTenant_queue (n : Nat) (f : TenantTotals → TenantTotals) (x : Nat) : (d.modTenant n f).queue x = d.queue x := rfl
@[simp] theorem Device.modTenant_terminal (n : Nat) (f : TenantTotals → TenantTotals) (x : Nat) : (d.modTenant n f).terminal x = d.terminal x := rfl
@[simp] theorem Device.modTenant_line (n : Nat) (f : TenantTotals → TenantTotals) (x : Nat) : (d.modTenant n f).line x = d.line x := rfl
@[simp] theorem Device.modTenant_kind (n : Nat) (f : TenantTotals → TenantTotals) (x : Nat) : (d.modTenant n f).kind x = d.kind x := rfl
@[simp] theorem Device.modTenant_order (n : Nat) (f : TenantTotals → TenantTotals) (x : Nat) : (d.modTenant n f).order x = d.order x := rfl
@[simp] theorem Device.modAccount_printer (n : Nat) (f : AccountTotals → AccountTotals) (x : Nat) : (d.modAccount n f).printer x = d.printer x := rfl
@[simp] theorem Device.modAccount_tenantTotals (n : Nat) (f : AccountTotals → AccountTotals) (x : Nat) : (d.modAccount n f).tenantTotals x = d.tenantTotals x := rfl
@[simp] theorem Device.modAccount_callout (n : Nat) (f : AccountTotals → AccountTotals) (x : Nat) : (d.modAccount n f).callout x = d.callout x := rfl
@[simp] theorem Device.modAccount_ticket (n : Nat) (f : AccountTotals → AccountTotals) (x : Nat) : (d.modAccount n f).ticket x = d.ticket x := rfl
@[simp] theorem Device.modAccount_queue (n : Nat) (f : AccountTotals → AccountTotals) (x : Nat) : (d.modAccount n f).queue x = d.queue x := rfl
@[simp] theorem Device.modAccount_terminal (n : Nat) (f : AccountTotals → AccountTotals) (x : Nat) : (d.modAccount n f).terminal x = d.terminal x := rfl
@[simp] theorem Device.modAccount_line (n : Nat) (f : AccountTotals → AccountTotals) (x : Nat) : (d.modAccount n f).line x = d.line x := rfl
@[simp] theorem Device.modAccount_kind (n : Nat) (f : AccountTotals → AccountTotals) (x : Nat) : (d.modAccount n f).kind x = d.kind x := rfl
@[simp] theorem Device.modAccount_order (n : Nat) (f : AccountTotals → AccountTotals) (x : Nat) : (d.modAccount n f).order x = d.order x := rfl
@[simp] theorem Device.putCallout_printer (n : Nat) (c : Option Callout) (x : Nat) : (d.putCallout n c).printer x = d.printer x := rfl
@[simp] theorem Device.putCallout_tenantTotals (n : Nat) (c : Option Callout) (x : Nat) : (d.putCallout n c).tenantTotals x = d.tenantTotals x := rfl
@[simp] theorem Device.putCallout_accountTotals (n : Nat) (c : Option Callout) (x : Nat) : (d.putCallout n c).accountTotals x = d.accountTotals x := rfl
@[simp] theorem Device.putCallout_ticket (n : Nat) (c : Option Callout) (x : Nat) : (d.putCallout n c).ticket x = d.ticket x := rfl
@[simp] theorem Device.putCallout_queue (n : Nat) (c : Option Callout) (x : Nat) : (d.putCallout n c).queue x = d.queue x := rfl
@[simp] theorem Device.putCallout_terminal (n : Nat) (c : Option Callout) (x : Nat) : (d.putCallout n c).terminal x = d.terminal x := rfl
@[simp] theorem Device.putCallout_line (n : Nat) (c : Option Callout) (x : Nat) : (d.putCallout n c).line x = d.line x := rfl
@[simp] theorem Device.putCallout_kind (n : Nat) (c : Option Callout) (x : Nat) : (d.putCallout n c).kind x = d.kind x := rfl
@[simp] theorem Device.putCallout_order (n : Nat) (c : Option Callout) (x : Nat) : (d.putCallout n c).order x = d.order x := rfl
@[simp] theorem Device.putTicket_printer (n : Nat) (t : Option Ticket) (x : Nat) : (d.putTicket n t).printer x = d.printer x := rfl
@[simp] theorem Device.putTicket_tenantTotals (n : Nat) (t : Option Ticket) (x : Nat) : (d.putTicket n t).tenantTotals x = d.tenantTotals x := rfl
@[simp] theorem Device.putTicket_accountTotals (n : Nat) (t : Option Ticket) (x : Nat) : (d.putTicket n t).accountTotals x = d.accountTotals x := rfl
@[simp] theorem Device.putTicket_callout (n : Nat) (t : Option Ticket) (x : Nat) : (d.putTicket n t).callout x = d.callout x := rfl
@[simp] theorem Device.putTicket_queue (n : Nat) (t : Option Ticket) (x : Nat) : (d.putTicket n t).queue x = d.queue x := rfl
@[simp] theorem Device.putTicket_terminal (n : Nat) (t : Option Ticket) (x : Nat) : (d.putTicket n t).terminal x = d.terminal x := rfl
@[simp] theorem Device.putTicket_line (n : Nat) (t : Option Ticket) (x : Nat) : (d.putTicket n t).line x = d.line x := rfl
@[simp] theorem Device.putTicket_kind (n : Nat) (t : Option Ticket) (x : Nat) : (d.putTicket n t).kind x = d.kind x := rfl
@[simp] theorem Device.putTicket_order (n : Nat) (t : Option Ticket) (x : Nat) : (d.putTicket n t).order x = d.order x := rfl
@[simp] theorem Device.putQueue_printer (p : Nat) (q : List Nat) (x : Nat) : (d.putQueue p q).printer x = d.printer x := rfl
@[simp] theorem Device.putQueue_tenantTotals (p : Nat) (q : List Nat) (x : Nat) : (d.putQueue p q).tenantTotals x = d.tenantTotals x := rfl
@[simp] theorem Device.putQueue_accountTotals (p : Nat) (q : List Nat) (x : Nat) : (d.putQueue p q).accountTotals x = d.accountTotals x := rfl
@[simp] theorem Device.putQueue_callout (p : Nat) (q : List Nat) (x : Nat) : (d.putQueue p q).callout x = d.callout x := rfl
@[simp] theorem Device.putQueue_ticket (p : Nat) (q : List Nat) (x : Nat) : (d.putQueue p q).ticket x = d.ticket x := rfl
@[simp] theorem Device.putQueue_terminal (p : Nat) (q : List Nat) (x : Nat) : (d.putQueue p q).terminal x = d.terminal x := rfl
@[simp] theorem Device.putQueue_line (p : Nat) (q : List Nat) (x : Nat) : (d.putQueue p q).line x = d.line x := rfl
@[simp] theorem Device.putQueue_kind (p : Nat) (q : List Nat) (x : Nat) : (d.putQueue p q).kind x = d.kind x := rfl
@[simp] theorem Device.putQueue_order (p : Nat) (q : List Nat) (x : Nat) : (d.putQueue p q).order x = d.order x := rfl
@[simp] theorem Device.modTerminal_printer (i : Nat) (f : Terminal → Terminal) (x : Nat) : (d.modTerminal i f).printer x = d.printer x := rfl
@[simp] theorem Device.modTerminal_tenantTotals (i : Nat) (f : Terminal → Terminal) (x : Nat) : (d.modTerminal i f).tenantTotals x = d.tenantTotals x := rfl
@[simp] theorem Device.modTerminal_accountTotals (i : Nat) (f : Terminal → Terminal) (x : Nat) : (d.modTerminal i f).accountTotals x = d.accountTotals x := rfl
@[simp] theorem Device.modTerminal_callout (i : Nat) (f : Terminal → Terminal) (x : Nat) : (d.modTerminal i f).callout x = d.callout x := rfl
@[simp] theorem Device.modTerminal_ticket (i : Nat) (f : Terminal → Terminal) (x : Nat) : (d.modTerminal i f).ticket x = d.ticket x := rfl
@[simp] theorem Device.modTerminal_queue (i : Nat) (f : Terminal → Terminal) (x : Nat) : (d.modTerminal i f).queue x = d.queue x := rfl
@[simp] theorem Device.modTerminal_line (i : Nat) (f : Terminal → Terminal) (x : Nat) : (d.modTerminal i f).line x = d.line x := rfl
@[simp] theorem Device.modTerminal_kind (i : Nat) (f : Terminal → Terminal) (x : Nat) : (d.modTerminal i f).kind x = d.kind x := rfl
@[simp] theorem Device.modTerminal_order (i : Nat) (f : Terminal → Terminal) (x : Nat) : (d.modTerminal i f).order x = d.order x := rfl
@[simp] theorem Device.withTerminal_printer (i : Nat) (t : Terminal) (x : Nat) : (d.withTerminal i t).printer x = d.printer x := rfl
@[simp] theorem Device.withTerminal_tenantTotals (i : Nat) (t : Terminal) (x : Nat) : (d.withTerminal i t).tenantTotals x = d.tenantTotals x := rfl
@[simp] theorem Device.withTerminal_accountTotals (i : Nat) (t : Terminal) (x : Nat) : (d.withTerminal i t).accountTotals x = d.accountTotals x := rfl
@[simp] theorem Device.withTerminal_callout (i : Nat) (t : Terminal) (x : Nat) : (d.withTerminal i t).callout x = d.callout x := rfl
@[simp] theorem Device.withTerminal_ticket (i : Nat) (t : Terminal) (x : Nat) : (d.withTerminal i t).ticket x = d.ticket x := rfl
@[simp] theorem Device.withTerminal_queue (i : Nat) (t : Terminal) (x : Nat) : (d.withTerminal i t).queue x = d.queue x := rfl
@[simp] theorem Device.withTerminal_line (i : Nat) (t : Terminal) (x : Nat) : (d.withTerminal i t).line x = d.line x := rfl
@[simp] theorem Device.withTerminal_kind (i : Nat) (t : Terminal) (x : Nat) : (d.withTerminal i t).kind x = d.kind x := rfl
@[simp] theorem Device.withTerminal_order (i : Nat) (t : Terminal) (x : Nat) : (d.withTerminal i t).order x = d.order x := rfl
@[simp] theorem Device.modLine_printer (n : Nat) (f : Line → Line) (x : Nat) : (d.modLine n f).printer x = d.printer x := rfl
@[simp] theorem Device.modLine_tenantTotals (n : Nat) (f : Line → Line) (x : Nat) : (d.modLine n f).tenantTotals x = d.tenantTotals x := rfl
@[simp] theorem Device.modLine_accountTotals (n : Nat) (f : Line → Line) (x : Nat) : (d.modLine n f).accountTotals x = d.accountTotals x := rfl
@[simp] theorem Device.modLine_callout (n : Nat) (f : Line → Line) (x : Nat) : (d.modLine n f).callout x = d.callout x := rfl
@[simp] theorem Device.modLine_ticket (n : Nat) (f : Line → Line) (x : Nat) : (d.modLine n f).ticket x = d.ticket x := rfl
@[simp] theorem Device.modLine_queue (n : Nat) (f : Line → Line) (x : Nat) : (d.modLine n f).queue x = d.queue x := rfl
@[simp] theorem Device.modLine_terminal (n : Nat) (f : Line → Line) (x : Nat) : (d.modLine n f).terminal x = d.terminal x := rfl
@[simp] theorem Device.modLine_kind (n : Nat) (f : Line → Line) (x : Nat) : (d.modLine n f).kind x = d.kind x := rfl
@[simp] theorem Device.modLine_order (n : Nat) (f : Line → Line) (x : Nat) : (d.modLine n f).order x = d.order x := rfl
@[simp] theorem Device.modKind_printer (k : Nat) (f : Kind → Kind) (x : Nat) : (d.modKind k f).printer x = d.printer x := rfl
@[simp] theorem Device.modKind_tenantTotals (k : Nat) (f : Kind → Kind) (x : Nat) : (d.modKind k f).tenantTotals x = d.tenantTotals x := rfl
@[simp] theorem Device.modKind_accountTotals (k : Nat) (f : Kind → Kind) (x : Nat) : (d.modKind k f).accountTotals x = d.accountTotals x := rfl
@[simp] theorem Device.modKind_callout (k : Nat) (f : Kind → Kind) (x : Nat) : (d.modKind k f).callout x = d.callout x := rfl
@[simp] theorem Device.modKind_ticket (k : Nat) (f : Kind → Kind) (x : Nat) : (d.modKind k f).ticket x = d.ticket x := rfl
@[simp] theorem Device.modKind_queue (k : Nat) (f : Kind → Kind) (x : Nat) : (d.modKind k f).queue x = d.queue x := rfl
@[simp] theorem Device.modKind_terminal (k : Nat) (f : Kind → Kind) (x : Nat) : (d.modKind k f).terminal x = d.terminal x := rfl
@[simp] theorem Device.modKind_line (k : Nat) (f : Kind → Kind) (x : Nat) : (d.modKind k f).line x = d.line x := rfl
@[simp] theorem Device.modKind_order (k : Nat) (f : Kind → Kind) (x : Nat) : (d.modKind k f).order x = d.order x := rfl
@[simp] theorem Device.putOrder_printer (n : Nat) (o : Option Order) (x : Nat) : (d.putOrder n o).printer x = d.printer x := rfl
@[simp] theorem Device.putOrder_tenantTotals (n : Nat) (o : Option Order) (x : Nat) : (d.putOrder n o).tenantTotals x = d.tenantTotals x := rfl
@[simp] theorem Device.putOrder_accountTotals (n : Nat) (o : Option Order) (x : Nat) : (d.putOrder n o).accountTotals x = d.accountTotals x := rfl
@[simp] theorem Device.putOrder_callout (n : Nat) (o : Option Order) (x : Nat) : (d.putOrder n o).callout x = d.callout x := rfl
@[simp] theorem Device.putOrder_ticket (n : Nat) (o : Option Order) (x : Nat) : (d.putOrder n o).ticket x = d.ticket x := rfl
@[simp] theorem Device.putOrder_queue (n : Nat) (o : Option Order) (x : Nat) : (d.putOrder n o).queue x = d.queue x := rfl
@[simp] theorem Device.putOrder_terminal (n : Nat) (o : Option Order) (x : Nat) : (d.putOrder n o).terminal x = d.terminal x := rfl
@[simp] theorem Device.putOrder_line (n : Nat) (o : Option Order) (x : Nat) : (d.putOrder n o).line x = d.line x := rfl
@[simp] theorem Device.putOrder_kind (n : Nat) (o : Option Order) (x : Nat) : (d.putOrder n o).kind x = d.kind x := rfl
@[simp] theorem Device.clearFlag_printer (f : Flag) (i : Nat) (x : Nat) : (d.clearFlag f i).printer x = d.printer x := rfl
@[simp] theorem Device.clearFlag_tenantTotals (f : Flag) (i : Nat) (x : Nat) : (d.clearFlag f i).tenantTotals x = d.tenantTotals x := rfl
@[simp] theorem Device.clearFlag_accountTotals (f : Flag) (i : Nat) (x : Nat) : (d.clearFlag f i).accountTotals x = d.accountTotals x := rfl
@[simp] theorem Device.clearFlag_callout (f : Flag) (i : Nat) (x : Nat) : (d.clearFlag f i).callout x = d.callout x := rfl
@[simp] theorem Device.clearFlag_ticket (f : Flag) (i : Nat) (x : Nat) : (d.clearFlag f i).ticket x = d.ticket x := rfl
@[simp] theorem Device.clearFlag_queue (f : Flag) (i : Nat) (x : Nat) : (d.clearFlag f i).queue x = d.queue x := rfl
@[simp] theorem Device.clearFlag_terminal (f : Flag) (i : Nat) (x : Nat) : (d.clearFlag f i).terminal x = d.terminal x := rfl
@[simp] theorem Device.clearFlag_line (f : Flag) (i : Nat) (x : Nat) : (d.clearFlag f i).line x = d.line x := rfl
@[simp] theorem Device.clearFlag_kind (f : Flag) (i : Nat) (x : Nat) : (d.clearFlag f i).kind x = d.kind x := rfl
@[simp] theorem Device.clearFlag_order (f : Flag) (i : Nat) (x : Nat) : (d.clearFlag f i).order x = d.order x := rfl
@[simp] theorem Device.raise_printer (f : Flag) (i : Nat) (x : Nat) : (d.raise f i).printer x = d.printer x := by simp only [Device.printer, Device.raise_printers]
@[simp] theorem Device.raise_tenantTotals (f : Flag) (i : Nat) (x : Nat) : (d.raise f i).tenantTotals x = d.tenantTotals x := by simp only [Device.tenantTotals, Device.raise_tenants]
@[simp] theorem Device.raise_accountTotals (f : Flag) (i : Nat) (x : Nat) : (d.raise f i).accountTotals x = d.accountTotals x := by simp only [Device.accountTotals, Device.raise_accounts]
@[simp] theorem Device.raise_callout (f : Flag) (i : Nat) (x : Nat) : (d.raise f i).callout x = d.callout x := by simp only [Device.callout, Device.raise_callouts]
@[simp] theorem Device.raise_ticket (f : Flag) (i : Nat) (x : Nat) : (d.raise f i).ticket x = d.ticket x := by simp only [Device.ticket, Device.raise_tickets]
@[simp] theorem Device.raise_queue (f : Flag) (i : Nat) (x : Nat) : (d.raise f i).queue x = d.queue x := by simp only [Device.queue, Device.raise_queues]
@[simp] theorem Device.raise_terminal (f : Flag) (i : Nat) (x : Nat) : (d.raise f i).terminal x = d.terminal x := by simp only [Device.terminal, Device.raise_terminals]
@[simp] theorem Device.raise_line (f : Flag) (i : Nat) (x : Nat) : (d.raise f i).line x = d.line x := by simp only [Device.line, Device.raise_lines]
@[simp] theorem Device.raise_kind (f : Flag) (i : Nat) (x : Nat) : (d.raise f i).kind x = d.kind x := by simp only [Device.kind, Device.raise_stock]
@[simp] theorem Device.raise_order (f : Flag) (i : Nat) (x : Nat) : (d.raise f i).order x = d.order x := by simp only [Device.order, Device.raise_orders]

end Sys2Proof.Machine
end

