-- ==== Sys2Proof/Laws/Floor.lean ====
section
/-! SUPPORT. What an answered poll does, in the shapes the statements name: the polled terminal's record after the
answer, and the screens and sessions of a terminal whose record is known. -/

namespace Sys2Proof.Machine

variable {d : Device} {line a i : Nat}

theorem Device.awaits.phase (h : d.awaits line a i) :
    ∃ m, (d.line line).phase = .polling a m ∧ terminalIndex line a = i ∧ (d.terminalSettings i).configured = true := by
  obtain ⟨_, _, rfl, ⟨m, hm⟩, hc⟩ := h
  exact ⟨m, hm, rfl, hc⟩

theorem Device.awaits.line_eq (h : d.awaits line a i) : i / 32 = line := by
  obtain ⟨h1, h2, rfl, _⟩ := h
  omega

/-- The outstanding poll of a line ends: its outcome is taken at the polled terminal, and the cursor moves. -/
theorem Device.awaits.endPoll (h : d.awaits line a i) (f : Device → Nat → Device) :
    d.endPoll line f = (f d i).advance line a := by
  obtain ⟨m, hm, hi, hc⟩ := h.phase
  simp [Device.endPoll, hm, hi, hc]

theorem Device.modTerminal_eq (f : Terminal → Terminal) : d.modTerminal i f = d.withTerminal i (f (d.terminal i)) := rfl

@[simp] theorem Device.withTerminal_withTerminal (t u : Terminal) :
    (d.withTerminal i t).withTerminal i u = d.withTerminal i u := by
  simp [Device.withTerminal]

@[simp] theorem Device.withTerminal_modTerminal (t : Terminal) (f : Terminal → Terminal) :
    (d.withTerminal i t).modTerminal i f = d.withTerminal i (f t) := by
  rw [Device.modTerminal_eq, Device.withTerminal_terminal, Device.withTerminal_withTerminal]

theorem Terminal.deliver_eq (t : Terminal) (now : Time) :
    { t.deliver now with window := pushOutcome true t.window } = t.answered now := by
  rcases t with ⟨_, _, _, _, _, w, _, p, _, _⟩
  rcases p with _ | ⟨s, k, c⟩
  · rfl
  · cases c <;> cases s <;> simp [Terminal.deliver, Terminal.answered, pushOutcome, Screen.setsFollowUp, Config.followUpSeconds,
      Option.filter]

theorem Terminal.answered_presence (t : Terminal) (now : Time) : (t.answered now).presence = t.presence := rfl
theorem Terminal.answered_ack (t : Terminal) (now : Time) : (t.answered now).ack = t.ack := rfl
theorem Terminal.answered_session (t : Terminal) (now : Time) : (t.answered now).session = t.session := rfl
theorem Terminal.accepted_presence (t : Terminal) (now idle : Time) (g : Bool) :
    (t.accepted now idle g).presence = t.presence := rfl

/-- A good answer of a PRESENT terminal, but for its content. -/
theorem Device.answerPresent_eq (d : Device) (i : Nat) (ans : Answer) :
    d.answerPresent i ans = match ans with
      | .idle | .ready => d.withTerminal i ((d.terminal i).answered d.uptime)
      | .joinRequest serial => ((d.withTerminal i ((d.terminal i).answered d.uptime)).modTerminal i
          Terminal.restartJoin).takeSerial i serial
      | .event toggle e => (d.withTerminal i ((d.terminal i).answered d.uptime)).acceptEvent i toggle e := by
  have h : d.modTerminal i (fun t => { t.deliver d.uptime with window := pushOutcome true t.window })
      = d.withTerminal i ((d.terminal i).answered d.uptime) := by
    rw [Device.modTerminal_eq, Terminal.deliver_eq]
  cases ans <;> simp only [Device.answerPresent, h]

/-- An accepted event of a PRESENT terminal: the record is the accepted one, and the event is taken. -/
theorem Device.awaits.accepted (h : d.awaits line a i) (hp : (d.terminal i).presence = .present) {toggle : Bool}
    (ht : (d.terminal i).ack ≠ toggle) (e : Event) :
    d.pollAnswered line (.event toggle e)
      = ((d.withTerminal i ((d.terminal i).accepted d.uptime (d.idleAt line) toggle)).takeEvent i e).advance line a := by
  unfold Device.pollAnswered
  rw [h.endPoll]
  have hs : ∀ (t : Session) (x : Time), t.restart x = match t with
      | .none => .none
      | .pinWait account _ => .pinWait account x
      | .listing account _ page refs => .listing account x page refs
      | .serviceMenu account _ last => .serviceMenu account x last := by
    intro t x; cases t <;> rfl
  simp only [Device.goodPoll, hp, Device.answerPresent_eq, Device.acceptEvent, Device.withTerminal_terminal,
    Terminal.answered_ack, Ne.symm ht, if_false, Device.withTerminal_modTerminal, Terminal.answered_session, hs]
  simp only [Device.idleFrom, h.line_eq]
  rfl

/-- A repeated event delivers the carried screen alone. -/
theorem Device.awaits.repeated (h : d.awaits line a i) (hp : (d.terminal i).presence = .present) (e : Event) :
    d.pollAnswered line (.event (d.terminal i).ack e)
      = (d.withTerminal i ((d.terminal i).answered d.uptime)).advance line a := by
  unfold Device.pollAnswered
  rw [h.endPoll]
  simp [Device.goodPoll, hp, Device.answerPresent_eq, Device.acceptEvent, Terminal.answered_ack]

/-- A screen made for a PRESENT terminal whose record is known. -/
theorem Device.withTerminal_makeScreen {t : Terminal} (hp : t.presence = .present) (s : Screen) (k : Option FollowUp) :
    (d.withTerminal i t).makeScreen i s k = d.withTerminal i (t.showing s k t.session) := by
  simp [Device.makeScreen, hp, Terminal.make, Terminal.showing]

theorem Device.withTerminal_endWith {t : Terminal} (hp : t.presence = .present) (s : Screen) (k : Option FollowUp) :
    (d.withTerminal i t).endWith i s k = d.withTerminal i (t.showing s k .none) := by
  rw [Device.endWith, Device.withTerminal_modTerminal, Device.withTerminal_makeScreen (by simpa [Terminal.endSession] using hp)]
  rfl

theorem Device.withTerminal_setSession (t : Terminal) (s : Session) :
    (d.withTerminal i t).setSession i s = d.withTerminal i { t with session := s } := by
  simp [Device.setSession]

theorem Device.withTerminal_showListing {t : Terminal} (hp : t.presence = .present) (account : Nat) (idle : Time)
    (page : Nat) : (d.withTerminal i t).showListing i account idle page = d.withTerminal i (d.listed i account idle page t) := by
  rw [Device.showListing, Device.withTerminal_setSession, Device.withTerminal_makeScreen (by simpa using hp)]
  rfl

end Sys2Proof.Machine
end

