-- ==== Sys2Proof/Laws/HandedOn.lean ====
section
/-! SUPPORT. The shared operations that end an event, in the shapes the statements name: latchings handed on and the
state derived, the queues considered after a ticket has left, and a freed order record offered. -/

namespace Sys2Proof.Machine

theorem Device.afterLeaving_eq_considered (d : Device) (p : Nat) : d.afterLeaving p = d.considered p := rfl

theorem Device.offerOrders_eq_offered (d : Device) : d.offerOrders = d.offered := rfl

theorem Device.finishEvent_eq (d w : Device) (p : Nat) :
    Device.finishEvent d p w = (w.handLatchings p (d.latchedSet p)).rederive p := rfl

/-- A latching moves the callout table and the flags, and no printer's record. -/
@[simp] theorem Device.takeLatching_printers (d : Device) (p : Nat) (cls : FaultClass) :
    (d.takeLatching p cls).printers = d.printers := by
  unfold Device.takeLatching Device.openOrPend Device.openCallout Device.joinPending Device.putCallout
  repeat' split
  all_goals simp

@[simp] theorem Device.takeLatching_fault (d : Device) (p q : Nat) (cls k : FaultClass) :
    (d.takeLatching p cls).fault q k = d.fault q k := by
  simp [Device.fault, Device.printer]

theorem Device.latchedSet_get (d : Device) (p : Nat) (cls : FaultClass) :
    (d.latchedSet p).get cls = (d.fault p cls).latched := by
  cases cls <;> rfl

/-- Handing the latchings on looks at the faults once: taking one changes none. -/
theorem Device.handLatchings_foldl (w : Device) (p : Nat) (old : ByClass Bool) (l : List FaultClass) (x : Device)
    (h : x.printers = w.printers) :
    l.foldl (fun x cls => if (x.fault p cls).latched && !old.get cls then x.takeLatching p cls else x) x
      = l.foldl (fun x cls => if (w.fault p cls).latched && !old.get cls then x.takeLatching p cls else x) x := by
  induction l generalizing x with
  | nil => rfl
  | cons cls l ih =>
    have same : (x.fault p cls).latched = (w.fault p cls).latched := by simp [Device.fault, Device.printer, h]
    simp only [List.foldl_cons, same]
    exact ih _ (by split <;> simp [h])

/-- What ends an event at a printer, as `Device.handedOn` spells it. -/
theorem Device.finishEvent_eq_handedOn (d w : Device) (p : Nat) : Device.finishEvent d p w = d.handedOn w p := by
  rw [Device.finishEvent_eq]
  unfold Device.handLatchings Device.handedOn
  rw [Device.handLatchings_foldl w p _ _ w rfl]
  simp only [Device.latchedSet_get]

end Sys2Proof.Machine
end

