-- ==== Sys2Proof/Laws/Special.lean ====
section
/-! SUPPORT. What the commands of time, store, guard, period, reset and power can do, said once for each; and
what a served request keeps. -/

namespace Sys2Proof.Machine

variable {F C : Prop} {d e : Device}

/-- What a served request keeps: of the ground only the working copy can change, and not while a save runs;
the canonical form and the bounds are kept. -/
theorem Device.Serves.keeps (h : d.Serves F C e) :
    e.ground = { d.ground with work := e.work } ∧ (d.saving = true → e.work = d.work)
      ∧ (d.work.canonical → e.work.canonical) ∧ (d.bounded → e.bounded)
      ∧ (d.tablesCanonical → e.tablesCanonical) ∧ e.work.guard = d.work.guard := by
  obtain ⟨w, a, b, gd, k⟩ := h
  have g := k.ground
  have hw : e.work = w := congrArg Device.work g
  refine ⟨?_, ?_, ?_, fun hb => k.bounded hb, fun hb => k.canonical hb, by rw [hw]; exact gd⟩
  · rw [g, hw]
    rfl
  · rw [hw]
    exact a
  · rw [hw]
    exact b

/-- The fields of the ground that a served request keeps. -/
theorem Device.Serves.same (h : d.Serves F C e) :
    e.uptime = d.uptime ∧ e.wall = d.wall ∧ e.wallValid = d.wallValid ∧ e.guardLatch = d.guardLatch
      ∧ e.period = d.period ∧ e.store = d.store ∧ e.mainPower = d.mainPower ∧ e.rstnLow = d.rstnLow
      ∧ e.markerValid = d.markerValid ∧ e.comparator = d.comparator ∧ e.start = d.start := by
  have g := h.keeps.1
  have field : ∀ {α : Type} (f : Device → α), f e.ground = f { d.ground with work := e.work } :=
    fun f => congrArg f g
  exact ⟨field Device.uptime, field Device.wall, field Device.wallValid, field Device.guardLatch,
    field Device.period, field Device.store, field Device.mainPower, field Device.rstnLow,
    field Device.markerValid, field Device.comparator, field Device.start⟩

theorem setTime_cases (body : List Byte) (d : Device) :
    (setTime body d).1 = d ∨
      ∃ w, (setTime body d).1 = Device.freshRollover { d with wall := w, wallValid := true } := by
  unfold setTime withFields
  split
  · exact .inl rfl
  · exact .inr ⟨_, rfl⟩

theorem commitSettings_cases (body : List Byte) (d : Device) :
    (commitSettings body d).1 = d ∨ (d.saving = false ∧
      (commitSettings body d).1 = { d with store := { d.store with saving := some d.work } }) := by
  unfold commitSettings withFields
  split
  · exact .inl rfl
  · dsimp only
    unfold unlessSaving
    split
    · exact .inl rfl
    · exact .inr ⟨by simp_all, rfl⟩

theorem Device.saveEnd_cases (equal : Bool) (d : Device) :
    d.saveEnd equal = d ∨ ∃ w, d.store.saving = some w ∧
      d.saveEnd equal = ({ d with store := Store.ended w equal }.raise
        (if equal then .settingsSaved else .storeFailed)) := by
  unfold Device.saveEnd
  split
  · exact .inl rfl
  · exact .inr ⟨_, ‹_›, rfl⟩

theorem setGuard_cases (body : List Byte) (d : Device) :
    (setGuard body d).1 = d ∨ (d.saving = false ∧ d.guardLatch = false ∧
      ∃ g l, (setGuard body d).1 = { d with work := { d.work with guard := g }, guardLatch := l }) := by
  unfold setGuard
  split
  · exact .inl rfl
  · rename_i hb
    unfold setGuardOpen withFields
    split
    · exact .inl rfl
    · rename_i vs hv
      have hl : body.length = 4 := by
        unfold fields at hv
        split at hv
        · rename_i hk
          simpa using takeFields_length hk
        · cases hv
      have hg : d.guardLatch = false := by simpa [hl] using hb
      dsimp only
      split
      · split
        · exact .inl rfl
        · split
          · unfold unlessSaving
            split
            · exact .inl rfl
            · exact .inr ⟨by simp_all, hg, _, _, rfl⟩
          · exact .inl rfl
      · exact .inl rfl

theorem closePeriod_cases (body : List Byte) (d : Device) :
    (closePeriod body d).1 = d ∨ (closePeriod body d).1 = d.closePeriod := by
  unfold closePeriod withFields
  split
  · exact .inl rfl
  · dsimp only
    split
    · exact .inr rfl
    · exact .inl rfl

theorem softReset_cases (s : State) :
    softReset s = s ∨ ∃ f rest, s.link.queue = f :: rest ∧ s.device.running = true ∧ f.kind = 0x09
      ∧ ((∃ st, softReset s = s.served f rest (refuse st s.device))
        ∨ (f.body = [] ∧ s.device.saving = false ∧ softReset s = s.softReset f)) := by
  unfold softReset
  split
  · exact .inl rfl
  · rename_i f rest hq
    split
    · rename_i hk
      simp only [Bool.and_eq_true, decide_eq_true_eq] at hk
      refine .inr ⟨f, rest, hq, hk.1, hk.2, ?_⟩
      split
      · exact .inl ⟨_, rfl⟩
      · split
        · exact .inl ⟨_, rfl⟩
        · exact .inr ⟨by simp_all, by simp_all, rfl⟩
    · exact .inl rfl

/-- What the ground holds after stages 2 to 7. -/
theorem Device.startFrom_ground (d : Device) (cause : StartCause) (loss battery : Bool) :
    (d.startFrom cause loss battery).ground
      = { d.loadSettings.ground with start := ⟨cause, loss, !d.store.checksumGood⟩ } := by
  obtain ⟨e, h, k⟩ := d.startFrom_moves cause loss battery
  have g := h.ground
  rw [k.ground]
  show ({ e.ground with start := _ } : Device) = _
  rw [g]

/-- The fields that stages 2 to 7 leave, or set from the store. -/
theorem Device.startFrom_same {e : Device} (cause : StartCause) (loss battery : Bool)
    (he : e = d.startFrom cause loss battery) :
    e.uptime = d.uptime ∧ e.wall = d.wall ∧ e.wallValid = d.wallValid ∧ e.guardLatch = d.guardLatch
      ∧ e.period = d.period ∧ e.mainPower = d.mainPower ∧ e.rstnLow = d.rstnLow
      ∧ e.markerValid = d.markerValid ∧ e.comparator = d.comparator ∧ e.work = d.loadSettings.work
      ∧ e.store = d.loadSettings.store ∧ e.start = ⟨cause, loss, !d.store.checksumGood⟩ := by
  have g : e.ground = _ := (congrArg Device.ground he).trans (d.startFrom_ground cause loss battery)
  clear he
  have field : ∀ {α : Type} (f : Device → α), f e.ground
      = f { d.loadSettings.ground with start := ⟨cause, loss, !d.store.checksumGood⟩ } :=
    fun f => congrArg f g
  exact ⟨field Device.uptime, field Device.wall, field Device.wallValid, field Device.guardLatch,
    field Device.period, field Device.mainPower, field Device.rstnLow, field Device.markerValid,
    field Device.comparator, field Device.work, field Device.store, field Device.start⟩

theorem serve_cases (kind : Nat) (h : List Byte → Device → Device × List Byte) (s : State) :
    (serve kind h s).device = s.device ∨ ∃ body, (serve kind h s).device = (h body s.device).1 := by
  rcases serveWhen_cases (fun k => k = kind) h s with e | ⟨f, rest, -, -, -, e⟩
  · exact .inl (congrArg State.device e)
  · exact .inr ⟨f.body, congrArg State.device e⟩

/-- What a command of time, store, guard, period, soft reset or pins does to the device: nothing, or its own
effect. The two commands that start the part again are in `startUp_device`. -/
inductive SpecialEffect (d : Device) : Instr → Device → Prop
  | nothing (c : Instr) : SpecialEffect d c d
  | time (w : Time) :
    SpecialEffect d .setTime (Device.freshRollover { d with wall := w, wallValid := true })
  | commit (hs : d.saving = false) :
    SpecialEffect d .commitSettings { d with store := { d.store with saving := some d.work } }
  | saved (b : Bool) (w : Settings) (hw : d.store.saving = some w) :
    SpecialEffect d (.saveEnd b) (({ d with store := Store.ended w b } : Device).raise
      (if b then .settingsSaved else .storeFailed))
  | guard (hs : d.saving = false) (hg : d.guardLatch = false) (g : Guard) (l : Bool) :
    SpecialEffect d .setGuard { d with work := { d.work with guard := g }, guardLatch := l }
  | period : SpecialEffect d .closePeriod d.closePeriod
  | reset (hs : d.saving = false) : SpecialEffect d .softReset (d.startFrom .softReset false false)
  | resetLow :
    SpecialEffect d .externalResetAssert { d with rstnLow := true, store := d.store.interrupt }
  | powerLoss : SpecialEffect d .mainPowerLoss { d with mainPower := false, store := d.store.interrupt }
  | dip (b m : Bool) : SpecialEffect d (.batteryDip b) { d with comparator := true, markerValid := m }

theorem exec_special {c : Instr} (hc : isSpecial c = true) (hp : c ≠ .mainPowerOn)
    (hr : c ≠ .externalReset) {s t : State} (h : exec c s = .next t) :
    SpecialEffect s.device c t.device := by
  cases c <;> first | exact absurd rfl hp | exact absurd rfl hr | (simp [isSpecial] at hc; done) | cases h
  case setTime =>
    rcases serve_cases 0x0A setTime s with e | ⟨b, e⟩
    · rw [e]; exact .nothing _
    · rw [e]
      rcases setTime_cases b s.device with k | ⟨w, k⟩
      · rw [k]; exact .nothing _
      · rw [k]; exact .time w
  case commitSettings =>
    rcases serve_cases 0x08 commitSettings s with e | ⟨b, e⟩
    · rw [e]; exact .nothing _
    · rw [e]
      rcases commitSettings_cases b s.device with k | ⟨hs, k⟩
      · rw [k]; exact .nothing _
      · rw [k]; exact .commit hs
  case saveEnd b =>
    unfold whenRunning
    split
    · rcases Device.saveEnd_cases b s.device with k | ⟨w, hw, k⟩
      · dsimp only; rw [k]; exact .nothing _
      · dsimp only; rw [k]; exact .saved b w hw
    · exact .nothing _
  case setGuard =>
    rcases serve_cases 0x2C setGuard s with e | ⟨b, e⟩
    · rw [e]; exact .nothing _
    · rw [e]
      rcases setGuard_cases b s.device with k | ⟨hs, hg, g, l, k⟩
      · rw [k]; exact .nothing _
      · rw [k]; exact .guard hs hg g l
  case closePeriod =>
    rcases serve_cases 0x2F closePeriod s with e | ⟨b, e⟩
    · rw [e]; exact .nothing _
    · rw [e]
      rcases closePeriod_cases b s.device with k | k
      · rw [k]; exact .nothing _
      · rw [k]; exact .period
  case softReset =>
    rcases softReset_cases s with k | ⟨f, rest, -, -, -, ⟨st, k⟩ | ⟨-, hs, k⟩⟩
    · rw [k]; exact .nothing _
    · rw [k]; exact .nothing _
    · rw [k]
      dsimp only [State.softReset]
      exact .reset hs
  case externalResetAssert => exact .resetLow
  case mainPowerLoss => exact .powerLoss
  case batteryDip b =>
    unfold batteryDip
    split
    · exact .nothing _
    · exact .dip b _

end Sys2Proof.Machine
end

