-- ==== Sys2Proof/WellFormed.lean ====
section
/-! DEFINITION. Which commands name things the FC480 has. A command that is not well formed names a
record, line or key that does not exist; the machine finds nothing there and changes nothing. -/

namespace Sys2Proof

/-- The command's own operands lie in the ranges of the spec. -/
def Instr.wellFormed : Instr → Bool
  | .silenceExpiry slot | .stallExpiry slot => slot < Config.printers
  | .holdoffExpiry slot _ => slot < Config.printers
  | .escalation record => record < Config.callouts
  | .lockoutExpiry account => account < Config.accounts
  | .ticketExpiry ticket | .completionDeadline ticket => ticket < Config.tickets
  | .answerWindowClose line | .quietPauseEnd line | .idle line | .ready line => line < Config.lines
  | .badAnswer line _ => line < Config.lines
  | .joinRequest line serial => line < Config.lines && serial ≤ Config.max32
  | .recentlyLostExpiry t | .idleDeadline t | .followUp t => t < Config.terminals
  | .badge line _ _ => line < Config.lines
  | .pin line _ _ => line < Config.lines
  | .release line _ n | .cancel line _ n => line < Config.lines && 1 ≤ n && n ≤ 4
  | .releaseAll line _ | .nextPage line _ | .logout line _ => line < Config.lines
  | .attend line _ | .serviceDone line _ => line < Config.lines
  | .unknownKey line _ _ => line < Config.lines
  | .overdueDeadline order => order < Config.orders
  | .hostFrame _ | .frameGap _ | .unknownKind | .identify | .readAttention | .ackAttention => true
  | .setAttentionEnables | .commitSettings | .saveEnd _ | .softReset | .setTime | .readTime => true
  | .setPrinter | .retirePrinter | .printerReport | .readPrinter | .setConditionMap => true
  | .setFaultPolicy | .clearFault | .readFaults | .readCallouts | .dispatchCallout => true
  | .closeCallout | .endService | .setTenant | .setAccount | .setCredential => true
  | .eraseCredential | .setGuard | .unlockAccount | .adjustUsage | .closePeriod => true
  | .readAccount | .readTenant | .setClass | .readClass | .quote | .submitJob => true
  | .cancelJob | .takeGrants | .jobDone | .readTickets | .setJobLimits | .setTerminal => true
  | .setLine | .readTerminals | .setForecast | .readSupplies | .dayRollover => true
  | .setStockKind | .adjustStock | .approveOrder | .declineOrder | .cancelOrder => true
  | .receiveDelivery | .readStock | .readOrders | .mainPowerOn | .externalReset => true
  | .externalResetAssert | .mainPowerLoss | .batteryDip _ => true

end Sys2Proof
end

