-- ==== Sys2Proof/Tests/Slice0.lean ====
section
/-! SUPPORT. Tests: ill-formed commands, the worked cases of the data sheet, and for each statement with
hypotheses a concrete state and operands that meet them. -/

open Sys2Proof Sys2Proof.Machine

namespace Sys2Proof.Tests

set_option Elab.async false

/-! ## Helpers -/

/-- The state a command leads to. -/
def ran (c : Instr) (s : State) : State :=
  match exec c s with
  | .next t => t
  | .fault _ | .refused _ => s

/-- A device with a quiet link and no command waiting. -/
def run (d : Device) : State := ⟨{}, d, []⟩

theorem get_ind {α : Type} (d : α) (t : Table α) (P : Nat → α → Prop) (h0 : ∀ n, P n d)
    (h : ∀ e ∈ t.entries, P e.1 e.2) (n : Nat) : P n (t.get d n) := by
  unfold Table.get
  generalize t.entries = l at h
  induction l with
  | nil => exact h0 n
  | cons e rest ih =>
    obtain ⟨k, v⟩ := e
    rw [Table.find]
    split
    · rename_i hk
      exact hk ▸ h (k, v) List.mem_cons_self
    · exact ih fun e he => h e (List.mem_cons_of_mem _ he)

/-- What holds of every listed record holds of every record found. -/
theorem every {α : Type} {t : Table (Option α)} {P : Nat → α → Prop} [∀ n u, Decidable (P n u)]
    (h : (t.entries.all fun e => e.2.all fun u => decide (P e.1 u)) = true) :
    ∀ n u, t.get none n = some u → P n u := by
  intro n
  refine get_ind none t (fun n o => ∀ u, o = some u → P n u) (fun _ _ h => by cases h) ?_ n
  intro e he u hu
  have := List.all_eq_true.mp h e he
  rw [hu] at this
  exact of_decide_eq_true this

theorem canonical_of {d : Device} (ht : d.tablesCanonical) (hw : d.work.canonical) (hi : d.store.image.canonical)
    (hs : d.store.saving = none) : d.canonical :=
  ⟨ht, hw, hi, fun w e => by rw [hs] at e; cases e⟩

def noClass : ByClass Bool := ⟨false, false, false, false, false, false, false, false, false, false, false, false⟩
def allChannels : ByChannel Bool := ⟨true, true, true, true, true, true⟩
def noKinds : ByChannel (Option Nat) := ⟨none, none, none, none, none, none⟩

/-- The two rate records of the worked cases (5.2). -/
def class2 : Rates := ⟨250, 1200, 100, 80, 24, 1⟩
def class5 : Rates := ⟨100, 600, 50, 40, 20, 1⟩

def officeWork : Settings where
  printers := ⟨[(0, ⟨true, 2, 4, none, allChannels, noKinds, 60, 3, 0⟩),
    (1, ⟨true, 5, 4, none, allChannels, noKinds, 60, 3, 0⟩)]⟩
  conditionMap := ⟨[(4, some ⟨0x1200, 0x12FF, .jam, none⟩)]⟩
  rates := ⟨[(2, class2), (5, class5)]⟩
  tenants := ⟨[(0, { active := true })]⟩
  accounts := ⟨[(0, { active := true, allowance := 1000 }), (1, { active := true, role := .tech }),
    (2, { active := true, pinRequired := true }), (4, { active := true, pinRequired := true })]⟩
  credentials := ⟨[(0, { token1 := some 1 }), (1, { token1 := some 2 }),
    (2, { token1 := some 3, digest := some 5 }), (3, { token1 := some 4 }), (4, { token1 := some 5 })]⟩
  terminals := ⟨[(0, { configured := true }), (2, { configured := true, printer := 1 })]⟩
  kinds := ⟨[(5, ⟨true, 41027, 0, 8, 4, 7, 2⟩)]⟩

def held (jobId owner mono sheets : Nat) (expiry : Time) : Ticket :=
  ⟨jobId, owner, .printer 0, mono, 0, sheets, .standard, none, 0, expiry, .held, false, none⟩

/-- Two printers of one release group, three accounts, a terminal beside each printer, two orders and a ticket
in each state; uptime 1,000. -/
def office : Device where
  uptime := 1000
  work := officeWork
  store := { checksumGood := true }
  printers := ⟨[(0, { derived := .online }), (1, { derived := .online, lastAdvance := some 600 })]⟩
  accounts := ⟨[(0, { held := 4 })]⟩
  tickets := ⟨[(0, some (held 10 0 10 10 500)),
    (1, some { held 11 0 10 10 5000 with phase := .queued ⟨0, 35, 2, class2⟩ }),
    (2, some { held 12 0 10 10 5000 with phase := .printing ⟨1, 15, 5, class5⟩ false 900 }),
    (3, some { held 13 0 10 10 5000 with phase := .printing ⟨1, 15, 5, class5⟩ false 5000 })]⟩
  queues := ⟨[(0, [1]), (1, [2])]⟩
  grants := [⟨12, 2, 1⟩]
  terminals := ⟨[(0, { presence := .present })]⟩
  lines := ⟨[(0, ⟨.polling 1 (.poll true false none), 0⟩)]⟩
  stock := ⟨[(5, { onHand := 2 })]⟩
  orders := ⟨[(0, some ⟨40, 5, 12, 0, .proposed, 500, none⟩),
    (1, some ⟨41, 5, 12, 0, .placed ⟨500, none, 900, false⟩, 400, none⟩)]⟩

theorem office_canonical : office.canonical :=
  canonical_of (by unfold Device.tablesCanonical; decide) (by unfold Settings.canonical; decide)
    (by unfold Settings.canonical; decide) rfl

/-- The office with terminal 0 in a session. -/
def inSession (x : Session) : State :=
  run { office with terminals := ⟨[(0, { presence := .present, session := x })]⟩ }

theorem office_awaits (t : Table Terminal) : ({ office with terminals := t } : Device).awaits 0 1 0 :=
  ⟨by decide, by decide, by decide, ⟨_, rfl⟩, rfl⟩

/-- A callout at printer 0 in a phase. -/
def calloutAt (p : CalloutPhase) : Callout := ⟨3, 0, noClass.set true .jam, none, 100, none, p, 0, 0⟩

/-- The office with printer 0 changed. -/
def withPrinter0 (r : Printer) : Device := { office with printers := ⟨[(0, r), (1, { derived := .online })]⟩ }

/-! ## Well-formed commands -/

/-- Each check of WellFormed refuses a command just above its range. -/
theorem test_ill_formed_commands_are_refused :
    ([.silenceExpiry 128, .stallExpiry 128, .holdoffExpiry 128 .jam, .escalation 32, .lockoutExpiry 4096,
      .ticketExpiry 1024, .completionDeadline 1024, .answerWindowClose 4, .badAnswer 4 .wrongCheck,
      .quietPauseEnd 4, .idle 4, .joinRequest 4 1, .joinRequest 0 4294967296, .ready 4,
      .recentlyLostExpiry 128, .badge 4 true 1, .pin 4 true 1, .release 4 true 1, .release 0 true 0,
      .release 0 true 5, .releaseAll 4 true, .cancel 4 true 1, .cancel 0 true 0, .cancel 0 true 5,
      .nextPage 4 true, .logout 4 true, .attend 4 true, .serviceDone 4 true, .unknownKey 4 true 0,
      .idleDeadline 128, .followUp 128, .overdueDeadline 64] : List Instr).all (fun c => !c.wellFormed) = true := by
  decide

/-- The same commands at the top of their ranges are well formed. -/
theorem test_commands_in_range_are_well_formed :
    ([.silenceExpiry 127, .holdoffExpiry 127 .jam, .escalation 31, .lockoutExpiry 4095, .ticketExpiry 1023,
      .answerWindowClose 3, .joinRequest 3 4294967295, .recentlyLostExpiry 127, .release 3 true 4,
      .cancel 3 true 1, .overdueDeadline 63] : List Instr).all (fun c => c.wellFormed) = true := by
  decide

/-! ## Worked cases of the data sheet -/

/-- Cases 1 to 7 of spec 05. -/
theorem test_worked_charges :
    charge class2 .large 40 10 25 = 338 ∧ charge ⟨3, 0, 0, 0, 16, 1⟩ .standard 1 0 1 = 1
      ∧ charge ⟨20, 0, 0, 50, 16, 2⟩ .standard 8 0 4 = 2 ∧ charge ⟨250, 0, 0, 0, 16, 0⟩ .standard 1 0 1 = 3
      ∧ charge ⟨149, 0, 0, 0, 16, 0⟩ .standard 1 0 1 = 1 ∧ charge class2 .standard 30 0 10 = 77
      ∧ charge class2 .standard 12 0 0 = 30 ∧ charge class2 .standard 0 0 3 = 0
      ∧ charge ⟨65535, 65535, 65535, 0, 64, 0⟩ .large 9999 9999 9999 = 65535
      ∧ charge ⟨65535, 65535, 65535, 65535, 64, 0⟩ .large 9999 9999 9999 = 65535 := by
  decide

/-- The two quantities of R162: position -1, order-up-to 8, pack 4; and position -10, order-up-to 255, pack 24. -/
theorem test_worked_quantities :
    proposalQuantity { orderUpTo := 8, packSize := 4 } (-1) = 12
      ∧ proposalQuantity { orderUpTo := 255, packSize := 24 } (-10) = 240 := by
  decide

/-! ## The whole machine: states that meet the statements' hypotheses -/

/-- A good state in which a save runs and a frame waits, with records in step: a callout, two orders, and a ticket in
each state. -/
def busy : State where
  link := { queue := [⟨0x0B, 9, []⟩] }
  device := { office with
    store := { office.store with saving := some officeWork }
    callouts := ⟨[(3, some (calloutAt (.opened 900)))]⟩
    tickets := ⟨[(0, some (held 10 0 10 10 500)),
      (1, some { held 11 0 10 10 5000 with phase := .queued ⟨0, 35, 2, class2⟩ }),
      (2, some { held 12 0 10 10 5000 with phase := .printing ⟨1, 15, 5, class5⟩ false 900 })]⟩ }
  pending := [.readTime]

theorem test_StepRunsTheFrontCommand : State.reset.pending = [] := rfl

theorem busy_good : busy.good := by
  refine ⟨?_, ?_, ?_, ?_, ?_⟩
  · exact ⟨trivial, by decide, by unfold Frame.good; decide, by decide, by decide, by decide, by decide, by decide⟩
  · unfold Device.bounded; decide
  · unfold Device.tablesCanonical; decide
  · unfold Settings.canonical; decide
  · refine ⟨?_, fun w h => ?_⟩
    · unfold Settings.canonical; decide
    · cases h
      unfold Settings.canonical; decide

theorem test_StepKeepsGoodStates : (∃ t, step busy = .next t) ∧ busy.good ∧ busy.savesItsCopy :=
  ⟨⟨_, rfl⟩, busy_good, fun w h => by cases h; rfl⟩

/-- What holds of every listed credential record of the office holds of every account. -/
theorem office_credentials (P : Nat → Credentials → Prop) [∀ n c, Decidable (P n c)] (h0 : ∀ n, P n {})
    (h : (officeWork.credentials.entries.all fun e => decide (P e.1 e.2)) = true) (n : Nat) :
    P n (office.credentials n) := by
  show P n (officeWork.credentials.get {} n)
  exact get_ind {} officeWork.credentials P h0 (fun e he => of_decide_eq_true (List.all_eq_true.mp h e he)) n

theorem officeWork_keyring : officeWork.keyring := by
  have all : ∀ n, (office.credentials n).token2 = none
      ∧ ((office.credentials n).token1 = none ∨ n < 5 ∧ (office.credentials n).token1 = some (BitVec.ofNat 64 (n + 1)))
      ∧ ((office.credentials n).digest = none ∨ n = 2) :=
    office_credentials (fun n c => c.token2 = none ∧ (c.token1 = none ∨ n < 5 ∧ c.token1 = some (BitVec.ofNat 64 (n + 1)))
      ∧ (c.digest = none ∨ n = 2)) (fun _ => ⟨rfl, .inl rfl, .inl rfl⟩) (by decide)
  have token : ∀ n v, (office.credentials n).holds v = true → n < 5 ∧ v = BitVec.ofNat 64 (n + 1) := by
    intro n v h
    obtain ⟨h2, h1 | ⟨hn, h1⟩, -⟩ := all n <;> simp [Credentials.holds, h1, h2] at h
    exact ⟨hn, h.symm⟩
  refine ⟨fun n v h => ?_, fun n v _ => ?_, fun m n v hm hn => ?_, fun n h => ?_⟩
  · obtain ⟨hn, rfl⟩ := token n v h
    have : ∀ n, n < 5 → BitVec.ofNat 64 (n + 1) ≠ 0 := by decide
    exact this n hn
  · rw [show (officeWork.credentials.get {} n).token2 = none from (all n).1]
    exact nofun
  · obtain ⟨a, rfl⟩ := token m v hm
    obtain ⟨b, h⟩ := token n _ hn
    have : ∀ m, m < 5 → ∀ n, n < 5 → BitVec.ofNat 64 (m + 1) = BitVec.ofNat 64 (n + 1) → m = n := by decide
    exact this m a n b h
  · obtain h' | rfl := (all n).2.2
    · exact absurd h' h
    · decide

theorem test_StepKeepsRecordsDistinct :
    (∃ t, step busy = .next t) ∧ busy.good ∧ busy.device.desk ∧ busy.device.orderBook ∧ busy.device.keyrings := by
  have record : ∀ n c, busy.device.callout n = some c → n = 3 ∧ c.printer = 0 := every (by decide)
  have book : ∀ n o, busy.device.order n = some o →
      n = 0 ∧ o.serial = 40 ∨ n = 1 ∧ o.serial = 41 ∧ o.phase ≠ .proposed := every (by decide)
  refine ⟨⟨_, rfl⟩, busy_good, ⟨fun n c h => by simp [(record n c h).1, Config.callouts], fun m n a b hm hn _ => ?_,
    by decide, fun e he => (List.not_mem_nil he).elim, .inl rfl⟩, ⟨fun n o h => ?_, fun m n a b hm hn h => ?_⟩,
    officeWork_keyring, ⟨fun n v h => ?_, fun n v h => ?_, fun m n v h => ?_, fun n h => ?_⟩, fun w h => ?_⟩
  · rw [(record m a hm).1, (record n b hn).1]
  · obtain ⟨rfl, -⟩ | ⟨rfl, -⟩ := book n o h <;> decide
  · obtain ⟨rfl, ha⟩ | ⟨rfl, ha, hp⟩ := book m a hm <;> obtain ⟨rfl, hb⟩ | ⟨rfl, hb, hq⟩ := book n b hn
    · rfl
    · rw [ha, hb] at h
      exact (h.elim (by decide) fun h => hq h.2.2).elim
    · rw [ha, hb] at h
      exact (h.elim (by decide) fun h => hp h.2.1).elim
    · rfl
  · cases h
  · cases h
  · cases h
  · exact absurd rfl h
  · cases h
    exact officeWork_keyring

/-- Three tickets, 0 in HELD, 1 in flight at printer 0 and 2 at printer 1, and their queues are in step. -/
theorem inStep_of {d : Device} (ticket : ∀ n t, d.ticket n = some t → t.jobId = n + 10
      ∧ (t.phase.admitted.map Admitted.printer) = (if n = 1 then some 0 else if n = 2 then some 1 else none))
    (one : ∃ t a, d.ticket 1 = some t ∧ t.phase.admitted = some a ∧ a.printer = 0)
    (two : ∃ t a, d.ticket 2 = some t ∧ t.phase.admitted = some a ∧ a.printer = 1)
    (hq : d.queues = busy.device.queues) : d.queuesInStep := by
  have queue : ∀ p, d.queue p = if 0 = p then [1] else if 1 = p then [2] else [] := fun p => by
    unfold Device.queue
    rw [hq]
    rfl
  have at_ : ∀ n p, (∃ t a, d.ticket n = some t ∧ t.phase.admitted = some a ∧ a.printer = p) ↔
      n = 1 ∧ p = 0 ∨ n = 2 ∧ p = 1 := by
    intro n p
    constructor
    · rintro ⟨t, a, ht, ha, rfl⟩
      have h := (ticket n t ht).2
      rw [ha] at h
      by_cases h1 : n = 1
      · simp_all
      · by_cases h2 : n = 2 <;> simp_all
    · rintro (⟨rfl, rfl⟩ | ⟨rfl, rfl⟩)
      · exact one
      · exact two
  refine ⟨fun m n t u hm hn h => ?_, fun p => ?_⟩
  · have := (ticket m t hm).1
    have := (ticket n u hn).1
    omega
  · have drop : (d.queue p).Nodup ∧ (d.queue p).length ≤ 8 ∧ (d.queue p).drop 1 = [] := by
      rw [queue]
      by_cases h0 : 0 = p
      · rw [if_pos h0]; decide
      · by_cases h1 : 1 = p
        · rw [if_neg h0, if_pos h1]; decide
        · rw [if_neg h0, if_neg h1]; decide
    refine ⟨drop.1, drop.2.1, fun n => ?_, fun n t h => absurd (drop.2.2 ▸ h) List.not_mem_nil⟩
    rw [at_, queue]
    by_cases h0 : 0 = p
    · subst h0; simp
    · by_cases h1 : 1 = p
      · subst h1; simp
      · simp [h0, h1]; omega

theorem busy_inStep : busy.device.queuesInStep :=
  inStep_of (every (by decide)) ⟨_, _, rfl, rfl, rfl⟩ ⟨_, _, rfl, rfl, rfl⟩ rfl

theorem busy_grants : busy.device.grantsInStep := by
  refine ⟨by decide, fun g => ⟨fun h => ?_, ?_⟩, by decide, .inl rfl⟩
  · obtain rfl := List.mem_singleton.mp h
    exact ⟨_, _, _, rfl, rfl, rfl, rfl⟩
  · rintro ⟨t, a, deadline, ht, hp, hj, hg⟩
    have only : ∀ n t, busy.device.ticket n = some t → t.phase.isPrinting = true →
        n = 2 ∧ t.jobId = 12 ∧ t.phase.admitted.map Admitted.printer = some 1 := every (by decide)
    obtain ⟨hn, hi, ha⟩ := only _ t ht (by rw [hp]; rfl)
    rw [hp] at ha
    have hp1 : a.printer = 1 := Option.some.inj ha
    obtain ⟨id, n, p⟩ := g
    refine List.mem_singleton.mpr (Grant.mk.injEq .. ▸ ⟨hj.trans hi, hn, hg.trans hp1⟩)

theorem test_StepKeepsQueuesInStep :
    (∃ t, step busy = .next t) ∧ busy.good ∧ busy.device.queuesInStep ∧ busy.device.grantsInStep :=
  ⟨⟨_, rfl⟩, busy_good, busy_inStep, busy_grants⟩

theorem test_RecordsMoveByTheirCommands :
    Instr.identify ≠ .mainPowerOn ∧ Instr.identify ≠ .externalReset ∧ Instr.identify ≠ .setTime
      ∧ Instr.identify ≠ .closePeriod ∧ Instr.identify ≠ .softReset
      ∧ (run { office with guardLatch := true }).device.guardLatch = true
      ∧ (∃ t, exec .identify (run { office with guardLatch := true }) = .next t)
      ∧ Instr.movesCounters .ackAttention = false ∧ Instr.movesFloor .ackAttention = false
      ∧ (∃ t, exec .ackAttention busy = .next t)
      ∧ (run { office with mainPower := false }).device.running = false ∧ Instr.isPower .identify = false :=
  ⟨by decide, by decide, by decide, by decide, by decide, rfl, ⟨_, rfl⟩, rfl, rfl, ⟨_, rfl⟩, by decide, by decide⟩

def longFrame : Frame := ⟨0x40, 7, List.replicate 1020 0⟩
def waitingFrames (n : Nat) : State :=
  ⟨{ queue := List.replicate n ⟨0x01, 0, []⟩ }, office, []⟩

theorem longFrame_good : longFrame.good :=
  ⟨by decide, Nat.le_of_eq List.length_replicate⟩

theorem test_FramesJoinTheQueueOrAreCounted :
    (waitingFrames 3).device.running = true ∧ (waitingFrames 3).link.receiver = .hunt ∧ longFrame.good ∧ (waitingFrames 3).link.queue.length < 4
      ∧ (waitingFrames 4).link.receiver = .hunt ∧ 4 ≤ (waitingFrames 4).link.queue.length
      ∧ ([0, 0] : List Byte) ≠ checkBytes ((⟨1, 2, []⟩ : Frame).header ++ (⟨1, 2, []⟩ : Frame).body)
      ∧ 1020 < (0xFD : Byte).toNat + 256 * (0x03 : Byte).toNat
      ∧ (1 ≤ 6 ∧ 6 < (⟨1, 2, []⟩ : Frame).wire.length) ∧ (0xC2 : Byte) ≠ 0xC3 :=
  ⟨rfl, rfl, longFrame_good, by decide, rfl, by decide, by decide +kernel, by decide, by decide +kernel, by decide⟩

theorem test_UnknownKindAndWrongLengthAreAnswered :
    (run office).device.running = true ∧ 0x05 < 256 ∧ 0xFF < 256 ∧ 0x05 ∉ [0x01, 0x02, 0x03, 0x04, 0x08]
      ∧ ([0, 0, 0] : List Byte).length ≠ 4 ∧ ([0, 0, 0, 0, 0] : List Byte).length ≠ 4 := by decide

theorem test_UnknownKindAndWrongLengthAreAnswered_variable :
    let body : List Byte := List.replicate 17 0
    let name : List Byte := List.replicate 255 0x41
    let long : List Byte := name ++ 1 :: List.replicate 19 0
    (run office).device.running = true ∧ (List.replicate 15 (0 : Byte)).length < 16
      ∧ body.length ≠ 16 + (body.getD 15 0).toNat ∧ 16 < (17 : Byte).toNat ∧ (List.replicate 7 (0 : Byte)).length ≠ 3 * (1 : Byte).toNat + 5
      ∧ (List.replicate 5 (0 : Byte)).length < 6 ∧ (List.replicate 5 (0 : Byte)).length = 5 ∧ name.length < (255 : Byte).toNat + 1
      ∧ long = name ++ 1 :: List.replicate 19 0 ∧ name.length = (255 : Byte).toNat
      ∧ (List.replicate 19 (0 : Byte)).length ≠ (1 : Byte).toNat + 17 ∧ (List.replicate 2 (0 : Byte)).length < 3
      ∧ (List.replicate 7 (0 : Byte)).length ≠ 8 ∧ (List.replicate 5 (0 : Byte)).length ≠ 4
      ∧ [4, 3, 1, 0, 0, 0][1]? = some 3 ∧ ([0, 0] : List Byte).length ≠ 3 := by
  decide +kernel

theorem test_SettingRequestsWaitForASave :
    busy.device.saving = true ∧ busy.device.running = true ∧ Instr.setClass ≠ .mainPowerOn
      ∧ Instr.setClass ≠ .externalReset ∧ (∃ t, exec .setClass busy = .next t) ∧ (run office).device.running = true
      ∧ (run office).device.saving = false ∧ Instr.setClass ≠ .setGuard ∧ office.guardLatch = false
      ∧ (run { busy.device with guardLatch := true }).device.running = true :=
  ⟨rfl, rfl, by decide, by decide, ⟨_, rfl⟩, rfl, rfl, by decide, rfl, rfl⟩

theorem test_ReadsLeaveTheDevice :
    (∃ t, exec .readTime busy = .next t) ∧ (run office).device.running = true ∧ 255 < 256 ∧ (6 ≤ 6 ∧ 2 ≤ 2 ∧ 128 ≤ 128)
      ∧ (127 < 128 ∧ office.configured 127 = false) ∧ (64 ≤ 64 ∧ 8 ≤ 8 ∧ 16 ≤ 16 ∧ 4 ≤ 4 ∧ 32 < 33)
      ∧ (4096 < 65536 ∧ 4096 ≤ 4096 ∧ 63 < 64) ∧ (1 ≤ 4294967295 ∧ 4294967295 < 2 ^ 32) ∧ office.tickets.wf none = true
      ∧ (∀ k t, office.ticket k = some t → t.jobId ≠ 4294967295) ∧ (9999 < 10000 ∧ 10000 < 65536 ∧ 1 < 2 ∧ 2 ≤ 255) :=
  ⟨⟨_, rfl⟩, rfl, by decide, by decide, by decide, by decide, by decide, by decide, by decide, every (by decide),
    by decide⟩

/-! ## Setting requests -/

theorem test_RateMapAndPolicyRequestsWriteOneRecord :
    let r : Rates := ⟨65535, 65535, 65535, 65535, 64, 255⟩
    let e : MapEntry := ⟨7, 65535, .supplyAbsent, some .waste⟩
    let p : Policy := ⟨.retry, true, 3600, 7, 1440, 1440⟩
    (run office).device.running = true ∧ (run office).device.saving = false ∧ 7 < 8 ∧ r.rm < 65536 ∧ r.rc < 65536
      ∧ r.rs < 65536 ∧ r.dc < 65536 ∧ 16 ≤ r.lf ∧ r.lf ≤ 64 ∧ r.mc < 256 ∧ 47 < 48 ∧ e.codeLow ≤ e.codeHigh
      ∧ e.codeHigh < 65536 ∧ e.cls.isMapped = true ∧ (e.channel.isSome = true → e.cls = .supplyAbsent)
      ∧ 10 ≤ p.retryTime ∧ p.retryTime ≤ 3600 ∧ 1 ≤ p.limit ∧ p.limit ≤ 7 ∧ 1 ≤ p.window ∧ p.window ≤ 1440
      ∧ 15 ≤ p.response ∧ p.response ≤ 1440 := by decide

theorem test_CredentialAndGuardRequestsWriteOneRecord :
    let frozen : Device := { office with work := { officeWork with guard := { frozen := true } }, guardLatch := true }
    (run office).device.running = true ∧ (run office).device.saving = false ∧ 0 < 4096
      ∧ office.work.guard.frozen = false ∧ office.work.credentials.wf {} = true
      ∧ (∀ m, (office.credentials m).token2 ≠ some 1 ∧ ((office.credentials m).token1 = some 1 → m = 0))
      ∧ (∀ m, (office.credentials m).token1 ≠ some 9 ∧ ((office.credentials m).token2 = some 9 → m = 0))
      ∧ (office.accountSettings 2).pinRequired = true ∧ (office.accountSettings 0).pinRequired = false
      ∧ ((office.credentials 0).token1 = some 1 ∧ (0 ≠ 1 ∨ 0 ≠ 0)) ∧ ((office.credentials 0).token1 = some 1 ∧ (0 ≠ 0 ∨ 1 ≠ 0))
      ∧ (4096 < 65536 ∧ 4096 ≤ 4096 ∧ 1 < 2 ∧ 2 < 3 ∧ 3 < 4 ∧ 255 < 256)
      ∧ frozen.work.guard.frozen = true ∧ office.guardLatch = false
      ∧ frozen.guardLatch = true ∧ 1 ≤ ({ failureLimit := 15 } : Guard).failureLimit
      ∧ ({ lockoutMinutes := 240 } : Guard).lockoutMinutes ≤ 240 := by
  exact ⟨rfl, rfl, by decide, rfl, by decide,
    office_credentials (fun m c => c.token2 ≠ some 1 ∧ (c.token1 = some 1 → m = 0)) (fun _ => ⟨nofun, nofun⟩) (by decide),
    office_credentials (fun m c => c.token1 ≠ some 9 ∧ (c.token2 = some 9 → m = 0)) (fun _ => ⟨nofun, nofun⟩) (by decide),
    by decide, by decide, by decide, by decide, by decide, rfl, rfl, rfl, by decide, by decide⟩

theorem test_TenantAndAccountRequestsWriteOneRecord :
    let r : TenantSettings := { active := true, allowance := 4294967295, holdHours := 72 }
    let a : AccountSettings := { active := true, tenant := 0, heldLimit := 64, pinRequired := false }
    (run office).device.running = true ∧ (run office).device.saving = false ∧ 0 < 64 ∧ r.allowance < 2 ^ 32
      ∧ 1 ≤ r.holdHours ∧ r.holdHours ≤ 72 ∧ ((office.tenantSettings 0).active = true → r.active = true)
      ∧ 0 < 4096 ∧ a.tenant < 64 ∧ a.allowance < 2 ^ 32 ∧ 1 ≤ a.heldLimit ∧ a.heldLimit ≤ 64 ∧ office.canonical
      ∧ ((office.accountSettings 0).active = true → a.active = true)
      ∧ ((office.accountSettings 0).tenant ≠ a.tenant →
        ∀ k t, office.ticket k = some t → t.owner = 0 → t.phase = .held)
      ∧ ((office.accountSettings 0).pinRequired = true → a.pinRequired = false → (office.credentials 0).digest = none)
      ∧ (office.usable 0 = true → (office.tenantSettings a.tenant).active = true) := by
  refine ⟨rfl, rfl, by decide, by decide, by decide, by decide, by decide, by decide, by decide, by decide, by decide,
    by decide, office_canonical, by decide, fun h => absurd rfl h, by decide, by decide⟩

theorem test_DeactivationRemovesHeldTicketsAndSessions :
    let a : AccountSettings := { active := false, heldLimit := 1 }
    let r : TenantSettings := { active := false }
    let quiet : Device := { office with tickets := ⟨[(0, some (held 10 0 10 10 500))]⟩, queues := ⟨[]⟩, grants := [] }
    (run office).device.running = true ∧ (run office).device.saving = false ∧ office.canonical
      ∧ (∃ t, office.ticket 1 = some t ∧ t.phase ≠ .held ∧ t.owner < 4096
        ∧ (office.accountSettings t.owner).tenant = 0 ∧ (office.accountSettings t.owner).active = true
        ∧ ((office.accountSettings t.owner).pinRequired = true → a.pinRequired = false →
          (office.credentials t.owner).digest = none))
      ∧ (office.tenantSettings 0).active = true ∧ r.active = false ∧ r.allowance < 2 ^ 32 ∧ 1 ≤ r.holdHours
      ∧ r.holdHours ≤ 72 ∧ a.tenant < 64 ∧ a.allowance < 2 ^ 32 ∧ 1 ≤ a.heldLimit ∧ a.heldLimit ≤ 64
      ∧ (office.accountSettings 0).tenant ≠ 1
      ∧ quiet.canonical ∧ quiet.usable 0 = true ∧ a.active = false ∧ (quiet.tenantSettings 63).active = false
      ∧ (∀ k t, quiet.ticket k = some t → t.owner = 0 → t.phase = .held)
      ∧ (∀ k t, quiet.ticket k = some t → (quiet.accountSettings t.owner).tenant = 0 → t.phase = .held) := by
  refine ⟨rfl, rfl, office_canonical, ⟨_, rfl, by decide, by decide, by decide, by decide, by decide⟩, by decide, rfl,
    by decide, by decide, by decide, by decide, by decide, by decide, by decide, by decide,
    canonical_of (by unfold Device.tablesCanonical; decide) (by unfold Settings.canonical; decide)
      (by unfold Settings.canonical; decide) rfl, by decide, rfl, by decide, every (by decide), every (by decide)⟩

/-- An account that is active and locked out, and so not usable, with no ticket in flight. -/
theorem test_DeactivationRemovesHeldTicketsAndSessions_locked :
    let a : AccountSettings := { active := false, heldLimit := 64, pinRequired := true }
    let d : Device := { office with
      accounts := ⟨[(0, { held := 1, lockedUntil := some 2000 })]⟩
      tickets := ⟨[(0, some (held 10 0 10 10 500))]⟩, queues := ⟨[]⟩, grants := [] }
    d.canonical ∧ (d.accountSettings 0).active = true ∧ d.usable 0 = false ∧ a.active = false ∧ a.heldLimit ≤ 64
      ∧ ((d.accountSettings 0).pinRequired = true → a.pinRequired = false → (d.credentials 0).digest = none)
      ∧ (d.accountSettings 0).pinRequired ≠ a.pinRequired
      ∧ ∀ k t, d.ticket k = some t → t.owner = 0 → t.phase = .held :=
  ⟨canonical_of (by unfold Device.tablesCanonical; decide) (by unfold Settings.canonical; decide)
      (by unfold Settings.canonical; decide) rfl, by decide, by decide, rfl, by decide, by decide, by decide,
    every (by decide)⟩

theorem test_LimitLineAndForecastRequestsWriteOneRecord :
    let r : LineSettings := ⟨true, 120⟩
    let f : ForecastSettings := { shift := 6, dayShift := 4, swap := 80, rolloverHour := 23 }
    (run office).device.running = true ∧ (run office).device.saving = false ∧ 1 ≤ 120 ∧ 120 ≤ 120 ∧ 60 ≤ 1800
      ∧ (∀ p t, (office.printer p).lastAdvance = some t → passed office.uptime (after t 1800) = false)
      ∧ 3 < 4 ∧ 15 ≤ r.idleTimeout ∧ r.idleTimeout ≤ 120 ∧ ((∃ x, (office.line 3).phase = .pausing x) → r.quiet = true)
      ∧ f.shift ≤ 6 ∧ f.dayShift ≤ 4 ∧ 20 ≤ f.swap ∧ f.swap ≤ 80 ∧ f.lowWarning ≤ 30 ∧ f.floorK < 65536
      ∧ f.floorColour < 65536 ∧ f.floorDrum < 65536 ∧ f.floorWaste < 65536 ∧ f.rolloverHour ≤ 23
      ∧ (∀ ch, f.floor ch = office.work.forecast.floor ch) ∧ f.lowWarning = office.work.forecast.lowWarning
      ∧ f.rolloverHour ≠ office.work.forecast.rolloverHour ∧ office.wallValid = false
      ∧ ({ office with wall := 4294880895, wallValid := true } : Device).wall.toNat + 86400 < 2 ^ 32 := by
  refine ⟨rfl, rfl, by decide, by decide, by decide, fun p => ?_, by decide, by decide, by decide, fun _ => rfl, by decide,
    by decide, by decide, by decide, by decide, by decide, by decide, by decide, by decide, by decide, fun ch => ?_,
    by decide, by decide, rfl, by decide⟩
  · refine get_ind {} office.printers
      (fun _ x => ∀ t, x.lastAdvance = some t → passed office.uptime (after t 1800) = false) (fun _ => nofun) ?_ p
    intro e he
    simp only [office, List.mem_cons, List.not_mem_nil, or_false] at he
    obtain rfl | rfl := he <;> intro t h <;> cases h
    decide
  · cases ch <;> rfl

theorem office_slots : ∀ p, office.configured p = true → p < 128 :=
  get_ind ({} : PrinterSettings) officeWork.printers (fun p r => r.enabled = true → p < 128) (fun _ h => by cases h)
    (by decide)

/-- A stall time that a running stall has reached, lines that pause with and without a configured address, and a SET
FORECAST whose floor for K lies above a last sample and whose warning takes in a channel's days. -/
theorem test_LimitLineAndForecastRequestsWriteOneRecord_acts :
    let paused : Device := { office with lines := ⟨[(0, ⟨.pausing 1002, 5⟩), (3, ⟨.pausing 1002, 0⟩)]⟩ }
    let stalled : Device := { office with tickets := busy.device.tickets }
    let d : Device := { stalled with
      printers := ⟨[(0, { derived := .online, forecasts := { ({} : Printer).forecasts with
                            k := { lastSample := some 99, days := some 30 } } }), (1, { derived := .online })]⟩ }
    let f : ForecastSettings := { d.work.forecast with floorK := 100, lowWarning := 30 }
    let sent := (run d).offer 0x50 7 (toBytes 1 f.shift ++ toBytes 1 f.dayShift ++ toBytes 1 f.swap
      ++ toBytes 1 f.lowWarning ++ toBytes 2 f.floorK ++ toBytes 2 f.floorColour ++ toBytes 2 f.floorDrum
      ++ toBytes 2 f.floorWaste ++ toBytes 1 f.rolloverHour)
    let e := (ran .setForecast sent).device
    (60 ≠ stalled.work.stallTime ∧ stalled.live 1 = true ∧ (stalled.printer 1).inService = false
        ∧ (stalled.printer 1).lastAdvance = some 600 ∧ passed stalled.uptime (after 600 60) = true)
      ∧ ((paused.line 0).phase = .pausing 1002 ∧ (paused.terminalSettings (0 * 32 + 1 - 1)).configured = true)
      ∧ ((paused.line 3).phase = .pausing 1002
        ∧ ∀ b, b < 33 → 1 ≤ b → (paused.terminalSettings (3 * 32 + b - 1)).configured = false)
      ∧ (d.live 0 = true ∧ d.configured 0 = true ∧ f.floor .k ≠ d.work.forecast.floor .k
        ∧ e.forecast 0 .k ≠ d.forecast 0 .k ∧ (e.fault 0 .consumption).active = true)
      ∧ (f.lowWarning ≠ d.work.forecast.lowWarning ∧ (d.printer 0).low = false ∧ (d.settings 0).channels.get .k = true
        ∧ (d.forecast 0 .k).days = some 30 ∧ 30 ≤ f.lowWarning ∧ d.enabled .supplyLow = true)
      ∧ (∀ ch, e.forecast 1 ch = d.forecast 1 ch)
      ∧ stalled.queuesInStep ∧ d.queuesInStep ∧ (∀ q, stalled.configured q = true → q < 128)
      ∧ ∀ q, d.configured q = true → q < 128 := by
  refine ⟨by decide, by decide, by decide, by decide +kernel, by decide, fun ch => ?_,
    inStep_of (every (by decide)) ⟨_, _, rfl, rfl, rfl⟩ ⟨_, _, rfl, rfl, rfl⟩ rfl,
    inStep_of (every (by decide)) ⟨_, _, rfl, rfl, rfl⟩ ⟨_, _, rfl, rfl, rfl⟩ rfl, office_slots, office_slots⟩
  cases ch <;> decide +kernel

theorem test_SetTerminalWritesOnePosition :
    let r : TerminalSettings := ⟨true, 1, some 4294967295⟩
    let joined : Device := { office with terminals := ⟨[(0, { presence := .present, joinedSerial := some 4294967295 })]⟩ }
    let paused : Device := { office with lines := ⟨[(0, ⟨.pausing 1002, 5⟩)]⟩ }
    (run office).device.running = true ∧ (run office).device.saving = false ∧ 0 < 4 ∧ 1 ≤ 32 ∧ 32 ≤ 32
      ∧ r.printer < 128 ∧ r.expected ≠ some 0 ∧ (∀ n, r.expected = some n → n < 2 ^ 32)
      ∧ (∃ a m, (office.line 0).phase = .polling a m)
      ∧ (office.terminalSettings (terminalIndex 0 32)).configured ≠ r.configured
      ∧ (office.terminalSettings (terminalIndex 0 1)).configured = true
      ∧ (office.terminalSettings (terminalIndex 0 1)).printer ≠ r.printer
      ∧ (office.terminal (terminalIndex 0 1)).presence ≠ .absent
      ∧ ((office.terminalSettings (terminalIndex 0 3)).configured = true ∧ (office.terminal (terminalIndex 0 3)).presence = .absent)
      ∧ ((office.terminalSettings (terminalIndex 0 1)).expected ≠ r.expected ∧ r.expected ≠ none
        ∧ (office.terminal (terminalIndex 0 1)).joinedSerial ≠ r.expected)
      ∧ (joined.terminal (terminalIndex 0 1)).joinedSerial = r.expected
      ∧ ((∃ x, (paused.line 0).phase = .pausing x)
        ∧ ∃ b, 1 ≤ b ∧ b ≤ 32 ∧ (paused.terminalSettings (terminalIndex 0 b)).configured = true)
      ∧ ((office.terminalSettings (terminalIndex 3 32)).configured = false ∧ r.configured = true
        ∧ (∀ b, ¬ (1 ≤ b ∧ b ≤ 32 ∧ (office.terminalSettings (terminalIndex 3 b)).configured = true))
        ∧ (office.line 3).phase = .silent) := by
  refine ⟨rfl, rfl, by decide, by decide, by decide, by decide, by decide, fun n h => ?_, ⟨_, _, rfl⟩, by decide,
    by decide, by decide, by decide, by decide, by decide, by decide, ⟨⟨_, rfl⟩, 1, by decide⟩, by decide, rfl,
    fun b h => ?_, by decide⟩
  · cases h
    decide
  · have : ∀ b, b < 33 → 1 ≤ b → (office.terminalSettings (terminalIndex 3 b)).configured = false := by decide
    exact absurd h.2.2 (by rw [this b (by omega) h.1]; decide)

theorem test_SetStockKindWritesOneKind :
    let r : KindSettings := ⟨true, 9, 0, 255, 24, 60, 30⟩
    let away : KindSettings := {}
    (run office).device.running = true ∧ (run office).device.saving = false ∧ 15 < 16 ∧ r.supplier < 2 ^ 32
      ∧ r.reorderPoint < r.orderUpTo ∧ r.orderUpTo < 256 ∧ 1 ≤ r.packSize ∧ r.packSize ≤ 24 ∧ 1 ≤ r.leadTime
      ∧ r.leadTime ≤ 60 ∧ r.grace ≤ 30 ∧ office.kindSettings 15 ≠ r ∧ office.kindSettings 15 = away
      ∧ (office.kindSettings 5).configured = true ∧ away.configured = false ∧ office.ordersOf 5 ≠ []
      ∧ ({ office with orders := ⟨[]⟩ } : Device).ordersOf 5 = [] ∧ office.kindSettings 5 ≠ away
      ∧ (r.reorderPoint : Int) ≤ (0 : Int) + office.onOrder 15
        - ({ office with work := { officeWork with kinds := officeWork.kinds.put {} 15 r } } : Device).demand 15 := by
  decide +kernel

/-! ## Printers -/

theorem test_SetPrinterConfiguresItsSlot :
    let r : PrinterSettings := ⟨true, 7, 31, some [0x41], allChannels, ⟨none, some 15, none, none, none, none⟩, 600, 15, 65535⟩
    let old : Device := withPrinter0 { retired := true, derived := .retired }
    let gone : Device := { old with tickets := ⟨[]⟩, queues := ⟨[]⟩ }
    (run office).device.running = true ∧ (run office).device.saving = false ∧ 127 < 128 ∧ r.rateClass < 8 ∧ r.group ≤ 31
      ∧ (∀ t, r.name = some t → 1 ≤ t.length ∧ t.length ≤ 16 ∧ t.all isChar = true)
      ∧ (∀ ch k, r.kinds.get ch = some k → k < 16) ∧ 10 ≤ r.reportInterval ∧ r.reportInterval ≤ 600
      ∧ 1 ≤ r.missedLimit ∧ r.missedLimit ≤ 15 ∧ r.serviceInterval < 65536
      ∧ office.configured 127 = false ∧ r.enabled = true ∧ office.configured 0 = true
      ∧ (office.printer 0).retired = false ∧ office.settings 0 ≠ r
      ∧ (let named := { office.settings 0 with rateClass := 7, group := 31, name := some [0x41] }
        office.settings 0 ≠ named ∧ named = { office.settings 0 with
          rateClass := named.rateClass, group := named.group, name := named.name })
      ∧ office.canonical ∧ office.derived 0 ∧ (old.printer 0).retired = true
      ∧ (∃ n t, old.tickets.wf none = true ∧ old.ticket n = some t ∧ t.target = .printer 0)
      ∧ gone.configured 0 = true ∧ (gone.printer 0).retired = true ∧ gone.tickets.wf none = true
      ∧ (∀ n t, gone.ticket n = some t → t.target ≠ .printer 0) ∧ gone.queue 0 = [] := by
  refine ⟨rfl, rfl, by decide, by decide, by decide, fun t h => ?_, fun ch k h => ?_, by decide, by decide, by decide,
    by decide, by decide, by decide, rfl, by decide, by decide, by decide, by decide, office_canonical, rfl, rfl,
    ⟨0, _, by decide, rfl, rfl⟩, by decide, by decide,
    by decide, every (by decide), by decide⟩
  · cases h
    decide
  · cases ch <;> cases h
    decide

/-- A full callout table whose record 3 is that of printer 0; printer 1, with MECHANISM latched, waits for a record. -/
def crowded (r : Printer) : Device := { office with
  printers := ⟨[(0, r), (1, { derived := .faulted, faults := { ({} : Printer).faults with
    mechanism := { active := true, latched := true } } })]⟩
  queues := ⟨[]⟩
  callouts := ⟨(List.range 32).map fun n =>
    (n, some { calloutAt (.attended 2) with serial := BitVec.ofNat 16 n, printer := if n = 3 then 0 else 60 + n })⟩
  pendingList := [⟨1, .mechanism, none, 900⟩] }

/-- Both hypotheses of the hand-over of record 3 of the crowded desk, after a command that frees it. -/
theorem crowded_waits (r : Printer) :
    (crowded r).pendingList = [] ++ ⟨1, .mechanism, none, 900⟩ :: [] ∧ (∀ m, m < 32 → (crowded r).callout m ≠ none) := by
  refine ⟨rfl, fun m h => ?_⟩
  have : ∀ m, m < 32 → (crowded {}).callout m ≠ none := by decide +kernel
  exact this m h

theorem test_RetirePrinterTakesThePrinterOut_hands :
    let d := crowded { derived := .online }
    let e := (ran .retirePrinter ((run d).offer 0x11 7 [0])).device
    d.live 0 = true ∧ d.queue 0 = [] ∧ d.callouts.wf none = true
      ∧ (∀ m k, d.callout m = some k → k.printer = 0 → m = 3) ∧ e.needsVisit 1 = true :=
  ⟨by decide, rfl, by decide +kernel, every (by decide +kernel), by decide +kernel⟩

theorem test_RetirePrinterTakesThePrinterOut :
    let d : Device := { office with queues := ⟨[]⟩, callouts := ⟨[(3, some (calloutAt (.opened 900)))]⟩ }
    (run d).device.running = true ∧ 128 ≤ 255 ∧ 255 < 256 ∧ 127 < 128 ∧ d.configured 127 = false
      ∧ office.configured 0 = true ∧ office.queue 0 ≠ [] ∧ d.live 0 = true ∧ d.queue 0 = [] ∧ d.waiting = []
      ∧ d.tickets.wf none = true ∧ d.pendingList = [] ∧ d.callouts.wf none = true
      ∧ d.callout 3 = some (calloutAt (.opened 900))
      ∧ (∀ m k, d.callout m = some k → k.printer = 0 → m = 3) := by
  refine ⟨rfl, by decide, by decide, by decide, by decide, by decide, by decide, by decide, by decide, rfl, by decide,
    rfl, by decide, rfl, every (by decide)⟩

def aReport (slot k : Nat) : Report := ⟨slot, ⟨30, 4, 20⟩, ⟨k, 100, 255, 0, 50, 10⟩, [0x1204]⟩

theorem aReport_fits (slot k : Nat) (hs : slot < 256) (hk : k < 256) : (aReport slot k).fits := by
  refine ⟨hs, (by decide : 30 < 2 ^ 32), (by decide : 4 < 2 ^ 32), (by decide : 20 < 2 ^ 32), fun ch => ?_,
    (by decide : 1 ≤ 16), (by decide : ∀ code ∈ [0x1204], code < 2 ^ 16)⟩
  cases ch
  · exact hk
  · exact (by decide : 100 < 256)
  · exact (by decide : 255 < 256)
  · exact (by decide : 0 < 256)
  · exact (by decide : 50 < 256)
  · exact (by decide : 10 < 256)

theorem test_ReportMovesTheCounters :
    (run office).device.running = true ∧ (List.replicate 19 (0 : Byte)).length ≠ 20 + 2 * ((List.replicate 19 (0 : Byte)).getD 19 0).toNat
      ∧ 16 < ((List.replicate 54 (17 : Byte)).getD 19 0).toNat ∧ (aReport 128 100).fits ∧ 128 ≤ (aReport 128 100).slot
      ∧ (aReport 0 101).fits ∧ (office.settings 0).channels.get .k = true ∧ 100 < (aReport 0 101).levels.get .k
      ∧ (aReport 0 101).levels.get .k ≠ 255 ∧ (aReport 127 255).fits ∧ office.configured 127 = false
      ∧ ((withPrinter0 { retired := true }).printer 0).retired = true
      ∧ (aReport 0 100).fits ∧ (aReport 0 100).slot < 128 ∧ office.live 0 = true
      ∧ (∀ ch, (office.settings 0).channels.get ch = true →
        (aReport 0 100).levels.get ch ≤ 100 ∨ (aReport 0 100).levels.get ch = 255) := by
  refine ⟨rfl, by decide, by decide, aReport_fits _ _ (by decide) (by decide), by decide, aReport_fits _ _ (by decide) (by decide), by decide,
    by decide, by decide, aReport_fits _ _ (by decide) (by decide), by decide, by decide,
    aReport_fits _ _ (by decide) (by decide), by decide, by decide, fun ch _ => ?_⟩
  cases ch <;> decide

/-- Printer 1 with last totals, a timed ticket and channel M marked, and a map entry that marks channel C. -/
def timed (last : Totals) : Device := { office with
  work := { officeWork with conditionMap := ⟨[(4, some ⟨0x1200, 0x12FF, .supplyAbsent, some .c⟩)]⟩ }
  printers := ⟨[(0, { derived := .online }), (1, { derived := .online, lastAdvance := some 600, lastTotals := some last
                                                   marks := ⟨false, false, true, false, false, false⟩ })]⟩ }

theorem test_ReportHandsRegressAndSilence :
    let d := timed ⟨10, 0, 5⟩
    let r := aReport 1 100
    let delta := (d.printer 1).deltas r.totals
    (d.live 1 = true ∧ (d.printer 1).inService = false ∧ d.printingTicket 1 ≠ none ∧ d.printingTicket 0 = none)
      ∧ (30 < ({ mono := 31 } : Totals).mono ∧ ((timed { mono := 31 }).printer 1).lastTotals = some { mono := 31 })
      ∧ (office.printer 1).lastTotals = none ∧ (d.settings 1).channels.get .c = true
      ∧ (0 < delta.mono + delta.colour ∧ (d.printer 1).lastAdvance ≠ none) ∧ (d.printer 0).lastAdvance = none
      ∧ ((run d).device.running = true ∧ r.fits ∧ r.slot < 128 ∧ d.work.conditionMap.wf none = true
        ∧ ∀ ch, (d.settings 1).channels.get ch = true → r.levels.get ch ≤ 100 ∨ r.levels.get ch = 255)
      ∧ (r.codes = [] ++ 0x1204 :: [] ∧ d.mapEntry 4 = some ⟨0x1200, 0x12FF, .supplyAbsent, some .c⟩
        ∧ (d.fault 1 .supplyAbsent).active = false)
      ∧ (r.levels.get .m = 255 ∧ (d.printer 1).marks.get .m = true ∧ (d.printer 1).marks.get .c = false) := by
  refine ⟨by decide, by decide, rfl, rfl, by decide, rfl, ⟨rfl, aReport_fits _ _ (by decide) (by decide), by decide, by decide,
    fun ch _ => ?_⟩, by decide, by decide⟩
  cases ch <;> decide

/-- The levels of a report at printer 0, whose code wins no SUPPLY_ABSENT entry: K a first reading, C an install, Y a drop (a
drop in SERVICE too), the drum a small rise and the waste box, 90 measured, a rise from the same level. -/
theorem test_ReportHandsRegressAndSilence_levels :
    let at_ := fun known => ({ p := some known, pk := some known } : Forecast)
    let d := withPrinter0 { derived := .online, forecasts := ⟨{}, at_ 62, {}, at_ 5, at_ 45, at_ 90⟩ }
    let away := withPrinter0 { derived := .service, inService := true, forecasts := ⟨{}, {}, {}, at_ 5, {}, {}⟩ }
    let r := aReport 0 59
    let f := fun (x : Device) => (x.takeTotals r).forecast 0
    let swap := d.work.forecast.swap
    (∀ code ∈ r.codes, ∀ n x, d.mapEntry n = some x → x.codeLow ≤ code → x.cls ≠ .supplyAbsent)
      ∧ (r.levels.get .k ≤ 100 ∧ (f d .k).pk = none) ∧ ((f d .c).pk = some 62 ∧ 62 + swap ≤ r.levels.get .c)
      ∧ ((f d .y).pk = some 5 ∧ r.levels.get .y < 5 ∧ (d.printer 0).inService = false)
      ∧ ((f away .y).pk = some 5 ∧ (away.printer 0).inService = true ∧ away.live 0 = true)
      ∧ ((f d .drum).pk = some 45 ∧ 45 ≤ r.levels.get .drum ∧ r.levels.get .drum < 45 + swap)
      ∧ ((f d .waste).pk = some 90 ∧ 100 - r.levels.get .waste = 90) := by
  refine ⟨fun code _ => ?_, by decide, by decide, by decide, by decide, by decide, by decide⟩
  intro n x h _
  exact every (t := officeWork.conditionMap) (P := fun _ x => x.cls ≠ .supplyAbsent) (by decide) n x h

/-- That report marks channel C, clears the mark of M, activates SUPPLY_ABSENT with its code and moves the last advance. -/
theorem test_report_marks_and_activates :
    let e := (timed ⟨10, 0, 5⟩).takeReport (aReport 1 100)
    (e.printer 1).marks.get .c = true ∧ (e.forecast 1 .c).p = some 0 ∧ (e.printer 1).marks.get .m = false
      ∧ (e.fault 1 .supplyAbsent).active = true ∧ (e.fault 1 .supplyAbsent).code = some 0x1204
      ∧ (e.forecast 1 .m).anchor = 4 ∧ (e.printer 1).lastAdvance = some 1000 := by
  decide +kernel

/-- A report whose level 0 of K empties the channel: SUPPLY_EMPTY, CONSUMPTION, low and out agree with the channels before
it, and the printer is low and out after it. -/
theorem test_ReportHandsRegressAndSilence_empty :
    let d := withPrinter0 { derived := .online, lastTotals := some { mono := 1 }, forecasts := { ({} : Printer).forecasts with
                              k := { p := some 3, pk := some 3 } } }
    let r : Report := { aReport 0 59 with levels := ⟨0, 255, 255, 255, 255, 255⟩ }
    let e := d.takeReport r
    (d.live 0 = true ∧ (d.fault 0 .supplyEmpty).active = false ∧ (d.fault 0 .consumption).active = false
        ∧ (d.printer 0).low = false ∧ (d.printer 0).out = false)
      ∧ (∀ ch, (d.forecast 0 ch).p ≠ some 0 ∧ (d.forecast 0 ch).days = none ∧ (d.forecast 0 ch).consuming = false)
      ∧ (d.enabled .supplyLow = true ∧ d.enabled .supplyOut = true ∧ (d.settings 0).channels.get .k = true)
      ∧ ((e.forecast 0 .k).p = some 0 ∧ (e.forecast 0 .k).days = some 0 ∧ (e.fault 0 .supplyEmpty).active = true) := by
  refine ⟨by decide, fun ch => ?_, by decide, by decide +kernel⟩
  cases ch <;> decide

theorem test_PrinterDeadlinesAct :
    let d : Device := withPrinter0 { derived := .holdoff, silenceDeadline := some 1000, lastAdvance := some 700
                                     faults := { ({} : Printer).faults with jam := { active := true, holdoff := some 1000 } } }
    let e : Device := { d with uptime := 699 }
    let away : Device := { d with printers := d.printers.put {} 0 { d.printer 0 with inService := true, derived := .service } }
    (run d).device.running = true ∧ (d.printer 0).silenceDeadline = some 1000 ∧ d.live 0 = true
      ∧ passed d.uptime 1000 = true ∧ min 15 ((d.printer 0).missed + 1) < (d.settings 0).missedLimit
      ∧ (d.fault 0 .silence).active = false ∧ d.derived 0 ∧ (d.printer 0).lastAdvance = some 700
      ∧ (d.printer 0).inService = false ∧ passed d.uptime (after 700 d.work.stallTime) = true
      ∧ (d.fault 0 .jam).holdoff = some 1000 ∧ passed e.uptime 1000 = false
      ∧ passed e.uptime (after 700 e.work.stallTime) = false
      ∧ ((away.printer 0).inService = true ∧ away.live 0 = true ∧ away.derived 0) := by
  unfold Device.derived
  decide

/-! ## Faults and callouts -/

/-- Printer 0 with a latched active MECHANISM, a latched inactive JAM and COVER_OPEN holding off. -/
def faulty : Printer where
  derived := .faulted
  faults := { ({} : Printer).faults with
    mechanism := { active := true, latched := true }
    jam := { latched := true, count := 3, window := some 100 }
    coverOpen := { active := true, holdoff := some 1200, count := 1 } }

theorem test_FaultActivityFollowsTheMode :
    let d := withPrinter0 faulty
    office.live 0 = true ∧ (office.fault 0 .jam).active = false ∧ (office.policy .mechanism).mode ≠ .report
      ∧ d.live 0 = true ∧ (d.fault 0 .mechanism).active = true ∧ (d.fault 0 .mechanism).latched = true
      ∧ (d.printer 0).inService = false
      ∧ ((office.policy .paperOut).mode = .report ∧ (office.fault 0 .paperOut).active = false
        ∧ office.enabled .faultReport = true)
      ∧ ∀ k, k ≠ .mechanism → (d.policy k).mode = .report → (d.fault 0 k).active = false := by
  refine ⟨by decide, by decide, by decide, by decide, by decide, by decide, by decide, by decide, fun k => ?_⟩
  cases k <;> decide

theorem test_DerivedStateIsTheFirstThatHolds :
    let d : Device := { withPrinter0 { faulty with derived := .online } with tickets := busy.device.tickets }
    let e : Device := { withPrinter0 { inService := true, derived := .online } with tickets := busy.device.tickets }
    (withPrinter0 faulty).derived 0 ∧ office.enabled .stateChanged = true ∧ ¬ d.derived 0 ∧ d.queuesInStep
      ∧ d.tickets.wf none = true ∧ d.derive 0 = .faulted ∧ d.queue 0 = [1]
      ∧ d.ticket 1 = some { held 11 0 10 10 5000 with phase := .queued ⟨0, 35, 2, class2⟩ }
      ∧ (e.derive 0 = .service ∧ ¬ e.derived 0 ∧ e.queuesInStep ∧ e.printingTicket 0 = none) := by
  refine ⟨rfl, by decide, by unfold Device.derived; decide, inStep_of (every (by decide)) ⟨_, _, rfl, rfl, rfl⟩ ⟨_, _, rfl, rfl, rfl⟩ rfl, by decide, by decide, rfl, rfl, by decide,
    by unfold Device.derived; decide, inStep_of (every (by decide)) ⟨_, _, rfl, rfl, rfl⟩ ⟨_, _, rfl, rfl, rfl⟩ rfl, by decide⟩

/-- The QUEUED ticket of a printer that becomes FAULTED is HELD again, and its reservation is returned. -/
theorem test_fault_returns_queued_tickets :
    let d : Device := { withPrinter0 { faulty with derived := .online } with accounts := ⟨[(0, { held := 4, reserved := 50 })]⟩ }
    (d.rederive 0).ticket 1 = some (held 11 0 10 10 5000) ∧ (d.rederive 0).queue 0 = []
      ∧ ((d.rederive 0).accountTotals 0).reserved = 15 := by
  decide +kernel

theorem test_ClearFaultClearsInactiveClasses :
    let d := withPrinter0 faulty
    (run d).device.running = true ∧ 128 < 256 ∧ 128 ≤ 128 ∧ 127 < 128 ∧ d.configured 127 = false
      ∧ ((withPrinter0 { faulty with retired := true }).printer 0).retired = true
      ∧ d.live 0 = true ∧ (d.printer 0).inService = false ∧ (d.fault 0 .coverOpen).active = true
      ∧ (d.fault 0 .coverOpen).holdoff ≠ none ∧ (d.fault 0 .jam).active = false ∧ 12 < (13 : Byte).toNat
      ∧ (withPrinter0 { faulty with inService := true, derived := .service }).derived 0 := by
  unfold Device.derived
  decide

theorem test_CalloutOpensOnALatching :
    let c := calloutAt (.opened 900)
    let one : Device := { office with callouts := ⟨[(3, some c)]⟩ }
    let full : Device := { office with callouts := ⟨(List.range 32).map fun n => (n, some { c with printer := 60 + n })⟩ }
    let waits : Device := { full with pendingList := [⟨0, .jam, none, 900⟩] }
    one.callouts.wf none = true ∧ (one.policy .paperOut).callout = false ∧ (one.policy .jam).callout = true
      ∧ (one.callout 3 = some c ∧ c.printer = 0 ∧ ∀ m k, one.callout m = some k → k.printer = 0 → m = 3)
      ∧ (∀ n k, one.callout n = some k → k.printer ≠ 1) ∧ (one.printer 1).inService = false
      ∧ (0 < 32 ∧ one.callout 0 = none ∧ ∀ m, m < 0 → one.callout m ≠ none) ∧ (∀ m k, one.callout m = some k → m < 32)
      ∧ full.callouts.wf none = true ∧ (∀ n k, full.callout n = some k → k.printer ≠ 0)
      ∧ (∀ n, n < 32 → full.callout n ≠ none) ∧ full.isPending 0 = false ∧ waits.isPending 0 = true := by
  refine ⟨by decide, by decide, by decide, ⟨rfl, rfl, every (by decide)⟩, every (by decide), by decide,
    ⟨by decide, by decide, nofun⟩, every (by decide), by decide +kernel, every (by decide +kernel), by decide +kernel,
    by decide, by decide⟩

theorem test_CalloutDeadlinesRestart_dispatch :
    let d : Device := { office with callouts := ⟨[(3, some (calloutAt (.opened 900)))]⟩ }
    let e : Device := { office with callouts := ⟨[(3, some (calloutAt (.attended 1)))]⟩ }
    (run d).device.running = true ∧ d.callouts.wf none = true ∧ (∀ n c, d.callout n = some c → c.serial ≠ 9)
      ∧ d.callout 3 = some (calloutAt (.opened 900)) ∧ (calloutAt (.opened 900)).serial = 3
      ∧ (∀ m k, d.callout m = some k → k.serial = 3 → m = 3)
      ∧ (∀ m k t, m ≠ 3 → d.callout m = some k → k.phase ≠ .opened t)
      ∧ e.callout 3 = some (calloutAt (.attended 1)) ∧ ∀ t, (calloutAt (.attended 1)).phase ≠ .opened t :=
  ⟨rfl, by decide, every (by decide), rfl, rfl, every (by decide),
    fun m k _ hm hk => absurd (every (P := fun m _ => m = 3) (by decide) m k hk) hm, rfl, nofun⟩

theorem test_CalloutDeadlinesRestart :
    let d : Device := { office with callouts := ⟨[(3, some (calloutAt (.dispatched 1000))),
      (4, some (calloutAt (.opened 1001))), (5, some (calloutAt (.attended 1)))]⟩ }
    (run d).device.running = true ∧ d.callout 3 = some (calloutAt (.dispatched 1000))
      ∧ (calloutAt (.dispatched 1000)).deadline = some 1000 ∧ passed d.uptime 1000 = true
      ∧ d.callout 4 = some (calloutAt (.opened 1001)) ∧ passed d.uptime 1001 = false
      ∧ d.callout 5 = some (calloutAt (.attended 1)) ∧ d.callout 6 = none := by decide

theorem test_CloseCalloutAndEndServiceMoveTheRecord :
    let c := calloutAt (.dispatched 5000)
    let d : Device := { withPrinter0 faulty with callouts := ⟨[(3, some c)]⟩ }
    let e : Device := { withPrinter0 { faulty with inService := true } with callouts := ⟨[(3, some (calloutAt (.attended 1)))]⟩ }
    let clear : Device := { withPrinter0 { inService := true } with callouts := e.callouts }
    (run d).device.running = true ∧ d.callouts.wf none = true ∧ (∀ n k, d.callout n = some k → k.serial ≠ 9)
      ∧ d.callout 3 = some c ∧ (∀ m k, d.callout m = some k → k.serial = c.serial → m = 3)
      ∧ (d.printer c.printer).inService = false ∧ d.pendingList = []
      ∧ ((d.fault 0 .mechanism).latched = true ∧ (d.fault 0 .mechanism).active = true
        ∧ (d.policy .mechanism).callout = true)
      ∧ 128 ≤ 255 ∧ 255 < 256 ∧ 127 < 128 ∧ d.configured 127 = false ∧ d.configured 0 = true
      ∧ (e.printer 0).inService = true ∧ (∀ m k, e.callout m = some k → k.printer = 0 → m = 3)
      ∧ e.needsVisit 0 = true ∧ clear.needsVisit 0 = false ∧ clear.pendingList = [] :=
  ⟨rfl, by decide, every (by decide), rfl, every (by decide), by decide, rfl, by decide, by decide, by decide, by decide,
    by decide, by decide, by decide, every (by decide), by decide, by decide, rfl⟩

/-- A printer in SERVICE closes too, and a freed record goes to printer 1. -/
theorem test_CloseCalloutAndEndServiceMoveTheRecord_hands :
    let away := crowded { inService := true, derived := .service }
    let closed := (ran .closeCallout ((run away).offer 0x22 7 [3, 0])).device
    let ended := (ran .endService ((run away).offer 0x23 7 [0])).device
    (away.printer 0).inService = true ∧ away.derived 0 ∧ away.callouts.wf none = true
      ∧ (∀ m k, away.callout m = some k → k.serial = 3 → m = 3) ∧ (∀ m k, away.callout m = some k → k.printer = 0 → m = 3)
      ∧ (∀ cls, (away.fault 0 cls).latched = false) ∧ away.needsVisit 0 = false
      ∧ closed.needsVisit 1 = true ∧ ended.needsVisit 1 = true :=
  ⟨rfl, rfl, by decide +kernel, every (by decide +kernel), every (by decide +kernel), fun cls => by cases cls <;> rfl,
    by decide, by decide +kernel, by decide +kernel⟩

/-- A full callout table without a record of printer 0. -/
def taken : Table (Option Callout) :=
  ⟨(List.range 32).map fun n => (n, some { calloutAt (.attended 2) with printer := 60 + n })⟩

/-- END SERVICE finds no record of the printer: one is free, or none is. -/
theorem test_CloseCalloutAndEndServiceMoveTheRecord_opens :
    let away := withPrinter0 { faulty with inService := true, derived := .service }
    (away.printer 0).inService = true ∧ (∀ n k, away.callout n = some k → k.printer ≠ 0) ∧ away.needsVisit 0 = true
      ∧ away.callout 0 = none ∧ taken.wf none = true ∧ (∀ n k, taken.get none n = some k → k.printer ≠ 0)
      ∧ (∀ n, n < 32 → taken.get none n ≠ none) ∧ away.isPending 0 = false :=
  ⟨rfl, every (by decide), by decide, rfl, by decide +kernel, every (t := taken) (by decide +kernel), by decide +kernel, by decide⟩

/-! ## Accounts and charging -/

theorem test_LockoutEndsTwoWays :
    let d : Device := { office with accounts := ⟨[(0, { failures := 5, lockedUntil := some 1000 }),
      (1, { failures := 5, lockedUntil := some 1001 })]⟩ }
    (run d).device.running = true ∧ 4096 ≤ 65535 ∧ 65535 < 65536 ∧ 4095 < 4096
      ∧ (d.accountTotals 0).lockedUntil = some 1000 ∧ passed d.uptime 1000 = true
      ∧ (d.accountTotals 1).lockedUntil = some 1001 ∧ passed d.uptime 1001 = false
      ∧ (d.accountTotals 2).lockedUntil = none := by decide

theorem test_UsedTotalsMoveByAdjustmentAndPeriodClose :
    (run office).device.running = true ∧ (-2147483648 : Int) ≤ -2147483648 ∧ (2147483647 : Int) ≤ 2147483647
      ∧ 4096 ≤ 4096 ∧ 4096 < 65536 ∧ 4095 < 4096 ∧ office.tenants.wf {} = true ∧ office.accounts.wf {} = true
      ∧ (0 : BitVec 16) = office.period ∧ (1 : BitVec 16) ≠ office.period := by decide

theorem test_ChargeFollowsTheSevenStages :
    (run office).device.running = true ∧ 7 < 8 ∧ 9999 ≤ 9999 ∧ 0 ≤ 9999 ∧ 9999 + 0 ≠ 0 ∧ 4095 < 4096 := by decide

/-- Step 3 of the redirection sequence of spec 05: both budgets cross. -/
def crossing : Device := { office with
  work := { officeWork with
    tenants := ⟨[(12, { active := true, allowance := 50000 })]⟩
    accounts := ⟨[(1500, { active := true, tenant := 12, allowance := 800 })]⟩ }
  tenants := ⟨[(12, ⟨49975, 21⟩)]⟩, accounts := ⟨[(1500, { used := 770, reserved := 21, held := 1 })]⟩ }

theorem test_SettlementMovesTheTotals :
    let remaining := fun allowance used reserved : Nat => (allowance : Int) - used - reserved
    0 < remaining 800 (crossing.accountTotals 1500).used (crossing.accountTotals 1500).reserved
      ∧ remaining 800 ((crossing.accountTotals 1500).used + 34) 0 ≤ 0
      ∧ 0 < remaining 50000 (crossing.tenantTotals 12).used (crossing.tenantTotals 12).reserved
      ∧ remaining 50000 ((crossing.tenantTotals 12).used + 34) 0 ≤ 0 := by decide

/-- The totals and the exhaustion entry after that step. -/
theorem test_worked_over_charge :
    let e := crossing.settle 1500 21 34
    ((e.accountTotals 1500).used, (e.accountTotals 1500).reserved) = (804, 0)
      ∧ ((e.tenantTotals 12).used, (e.tenantTotals 12).reserved) = (50009, 0)
      ∧ e.exhaustions.map (fun x => (x.account, x.tenant, x.crossed, x.charge, x.reservation))
        = [(1500, 12, .both, 34, 21)] := by decide

theorem test_ListsAreEmptiedAsTheyAreRead : (run office).device.running = true ∧ 7 < 8 := by decide

/-! ## Jobs -/

def aJob (owner colour : Nat) : Submission :=
  { jobId := 99, owner := owner, targetKind := 0, targetNumber := 0, mono := 9999 - colour, colour := colour
    sheets := 9999, size := 1, title := List.replicate 32 0x20 }

theorem aJob_names (d : Device) (owner colour : Nat) (h : d.live 0 = true) (ho : owner < 2 ^ 16) (hc : colour ≤ 9999) :
    (aJob owner colour).names d (.printer 0) := by
  refine ⟨(by decide : 1 ≤ 99), (by decide : 99 < 2 ^ 32), ho, (by decide : 1 ≤ 1),
    (by decide : (List.replicate 32 (0x20 : Byte)).length ≤ 32),
    (by decide : (List.replicate 32 (0x20 : Byte)).all isChar = true), Nat.sub_le _ _, hc, (by decide : 1 ≤ 9999),
    (by decide : 9999 ≤ 9999), ?_, ?_, .inl ⟨rfl, (by decide : 0 < 128), h, rfl⟩⟩
  · show 9999 ≤ 9999 - colour + colour
    omega
  · show 9999 - colour + colour ≤ 2 * 9999
    omega

/-- The office without colour for account 0, with a full store, and with account 0 at its held limit. -/
def monoOffice : Device := { office with work := { officeWork with accounts := ⟨[(0, { active := true, colour := false })]⟩ } }
def filled (n : Nat) : Table (Option Ticket) := ⟨(List.range n).map fun k => (k, some (held (2000 + k) 0 1 1 5000))⟩
def fullOffice : Device := { office with tickets := filled 1024 }
def limitedOffice : Device := { office with accounts := ⟨[(0, { held := 16 })]⟩ }

theorem filled_mem {n : Nat} {e : Nat × Option Ticket} (h : e ∈ (filled n).entries) :
    e.2 = some (held (2000 + e.1) 0 1 1 5000) := by
  obtain ⟨k, _, rfl⟩ := List.mem_map.mp h
  rfl

theorem filled_rises (n : Nat) : (filled n).entries.Pairwise fun a b => a.1 < b.1 :=
  List.pairwise_map.mpr List.pairwise_lt_range

theorem filled_get {n m : Nat} (h : m < n) : (filled n).get none m ≠ none := by
  have hm : (m, some (held (2000 + m) 0 1 1 5000)) ∈ (filled n).entries :=
    List.mem_map.mpr ⟨m, List.mem_range.mpr h, rfl⟩
  unfold Table.get
  rw [Table.find_of_mem none (filled_rises n) hm]
  exact nofun

theorem fullOffice_full (m : Nat) (h : m < 1024) : fullOffice.ticket m ≠ none := filled_get h

theorem test_SubmitJobChecksAndPlaces_full :
    fullOffice.tickets.wf none = true ∧ (∀ m u, fullOffice.ticket m = some u → u.jobId ≠ 99)
      ∧ fullOffice.usable 0 = true := by
  refine ⟨(Table.wf_iff none (filled 1024)).mpr ⟨filled_rises _, fun e he => ?_⟩, fun m u => ?_, by decide⟩
  · rw [filled_mem he]
    exact nofun
  · refine get_ind none (filled 1024) (fun _ o => ∀ u, o = some u → u.jobId ≠ 99) (fun _ => nofun) ?_ m u
    intro e he u hu
    rw [filled_mem he] at hu
    cases hu
    show 2000 + e.1 ≠ 99
    omega

theorem test_SubmitJobChecksAndPlaces_names :
    (aJob 0 0).names office (.printer 0) ∧ (aJob 0 1).names monoOffice (.printer 0)
      ∧ (aJob 4096 0).names office (.printer 0) ∧ (aJob 0 0).names fullOffice (.printer 0)
      ∧ (aJob 0 0).names limitedOffice (.printer 0) :=
  ⟨aJob_names office 0 0 (by decide) (by decide) (by decide), aJob_names monoOffice 0 1 (by decide) (by decide) (by decide),
    aJob_names office 4096 0 (by decide) (by decide) (by decide), aJob_names fullOffice 0 0 (by decide) (by decide) (by decide),
    aJob_names limitedOffice 0 0 (by decide) (by decide) (by decide)⟩

theorem test_SubmitJobChecksAndPlaces :
    (run office).device.running = true ∧ office.tickets.wf none = true ∧ 4096 ≤ (aJob 4096 0).owner
      ∧ (aJob 0 0).owner < 4096
      ∧ office.usable 3 = false ∧ office.usable 0 = true ∧ monoOffice.usable 0 = true ∧ 0 < (aJob 0 1).colour
      ∧ (monoOffice.accountSettings 0).colour = false ∧ (aJob 0 0).colour = 0
      ∧ (∃ m u, office.ticket m = some u ∧ u.jobId = 10) ∧ (∀ m u, office.ticket m = some u → u.jobId ≠ 99)
      ∧ (∀ m, m < 1024 → fullOffice.ticket m ≠ none)
      ∧ (4 < 1024 ∧ office.ticket 4 = none ∧ ∀ m, m < 4 → office.ticket m ≠ none)
      ∧ (limitedOffice.accountSettings 0).heldLimit ≤ (limitedOffice.accountTotals 0).held
      ∧ (office.accountTotals 0).held < (office.accountSettings 0).heldLimit :=
  ⟨rfl, by decide, Nat.le_refl _, (by decide : 0 < 4096), by decide, by decide, by decide, (by decide : 0 < 1), by decide,
    rfl, ⟨0, _, rfl, rfl⟩, every (by decide), fullOffice_full, by decide, by decide, by decide⟩

theorem test_SubmitJobChecksAndPlaces_fields :
    let b : Submission := { aJob 0 0 with jobId := 0 }
    b.jobId < 2 ^ 32 ∧ b.owner < 65536 ∧ b.targetKind < 256 ∧ b.targetNumber < 256 ∧ b.mono < 65536 ∧ b.colour < 65536
      ∧ b.sheets < 65536 ∧ b.size < 256 ∧ b.title.length < 256 ∧ b.jobId = 0 := by decide +kernel

theorem office_holds_ticket (n : Nat) (t : Ticket) (h : office.ticket n = some t)
    (hu : ∀ m u, office.ticket m = some u → u.jobId = t.jobId → m = n) : office.holds n t := ⟨by decide, h, hu⟩

theorem test_CancelAndExpiryRemoveTickets :
    let t0 := held 10 0 10 10 500
    let t1 : Ticket := { held 11 0 10 10 5000 with phase := .queued ⟨0, 35, 2, class2⟩ }
    let t2 : Ticket := { held 12 0 10 10 5000 with phase := .printing ⟨1, 15, 5, class5⟩ false 900 }
    (run office).device.running = true ∧ 1 ≤ 4294967295 ∧ 4294967295 < 2 ^ 32 ∧ office.tickets.wf none = true
      ∧ (∀ m u, office.ticket m = some u → u.jobId ≠ 4294967295)
      ∧ office.holds 0 t0 ∧ t0.phase = .held ∧ office.holds 1 t1 ∧ t1.phase = .queued ⟨0, 35, 2, class2⟩
      ∧ office.holds 2 t2 ∧ t2.phase = .printing ⟨1, 15, 5, class5⟩ false 900
      ∧ 1 ≤ t0.jobId ∧ t0.jobId < 2 ^ 32 ∧ passed office.uptime t0.expiry = true ∧ t1.phase ≠ .held :=
  ⟨rfl, by decide, by decide, by decide, every (by decide), office_holds_ticket _ _ rfl (every (by decide)), rfl,
    office_holds_ticket _ _ rfl (every (by decide)), rfl, office_holds_ticket _ _ rfl (every (by decide)), rfl, by decide,
    by decide, by decide, by decide⟩

theorem test_TakeGrantsHandsOutTheOldest :
    (run office).device.running = true ∧ 255 < 256 ∧ 8 < 9 ∧ 1 ≤ 8 ∧ 8 ≤ 8 ∧ office.waiting = []
      ∧ (⟨12, 2, 1⟩ : Grant) ∈ office.grants.take 1 ∧ ∃ t, office.ticket 2 = some t
        ∧ t.phase = .printing ⟨1, 15, 5, class5⟩ false 900 :=
  ⟨rfl, by decide, by decide, by decide, by decide, rfl, by decide, _, rfl, rfl⟩

theorem test_PrintingTicketEndsByJobDoneOrDeadline :
    let t2 : Ticket := { held 12 0 10 10 5000 with phase := .printing ⟨1, 15, 5, class5⟩ false 900 }
    let t3 : Ticket := { held 13 0 10 10 5000 with phase := .printing ⟨1, 15, 5, class5⟩ false 5000 }
    let some_ : Device := { office with printers := ⟨[(1, { derived := .online, printing := ⟨10, 0, 10⟩ })]⟩ }
    (run office).device.running = true ∧ 65535 < 65536 ∧ 255 < 256 ∧ 1 < 255 ∧ (1 : Nat) ≤ 1
      ∧ office.tickets.wf none = true ∧ (∀ m u, office.ticket m = some u → u.jobId ≠ 4294967295)
      ∧ office.holds 0 (held 10 0 10 10 500) ∧ (held 10 0 10 10 500).phase.isPrinting = false ∧ office.holds 2 t2
      ∧ t2.phase = .printing ⟨1, 15, 5, class5⟩ false 900 ∧ 1 ≤ t2.jobId ∧ t2.jobId < 2 ^ 32
      ∧ office.ticket 2 = some t2 ∧ passed office.uptime 900 = true ∧ office.ticket 3 = some t3
      ∧ passed office.uptime 5000 = false ∧ (office.printer 1).printing = {} ∧ (some_.printer 1).printing ≠ {} :=
  ⟨rfl, by decide, by decide, by decide, by decide, by decide, every (by decide),
    office_holds_ticket _ _ rfl (every (by decide)), rfl, office_holds_ticket _ _ rfl (every (by decide)), rfl, by decide,
    by decide, rfl, by decide, rfl, by decide, by decide, by decide⟩

/-- The lock-out and settlement of T2 in the morning sequence of spec 06: 31 CU at class 5. -/
theorem test_worked_estimates :
    charge class2 .standard 10 0 10 = 35 ∧ charge class5 .standard 10 0 10 = 15
      ∧ charge class2 .standard 6 4 5 = 64 ∧ charge class5 .standard 6 4 5 = 31
      ∧ charge class2 .standard 20 0 10 = 52 ∧ charge class5 .standard 20 0 10 = 21 := by decide

/-! ## Terminals and lines -/

/-- Address `b` of line 0 of the office is a configured position. -/
abbrev officePolls (b : Nat) : Prop := 1 ≤ b ∧ b ≤ 32 ∧ (office.terminalSettings (0 * 32 + b - 1)).configured = true

theorem test_LinesPollConfiguredAddressesInTurn :
    let quiet : Device := { office with work := { officeWork with lines := ⟨[(0, { quiet := true })]⟩ } }
    let paused : Device := { quiet with lines := ⟨[(0, ⟨.pausing 1000, 5⟩)]⟩ }
    (run office).device.running = true ∧ (officePolls 3 ∧ 1 < 3 ∧ ∀ c, c < 3 → 1 < c → ¬ officePolls c)
      ∧ (∀ c, 3 < c → ¬ officePolls c) ∧ (officePolls 1 ∧ ∀ c, c < 1 → ¬ officePolls c) ∧ (quiet.lineSettings 0).quiet = true
      ∧ (∀ k, k < 32 → (quiet.terminal (0 * 32 + k)).session = .none ∧ (quiet.terminal (0 * 32 + k)).presence ≠ .joining)
      ∧ (office.lineSettings 0).quiet = false
      ∧ (∀ b, b ≤ 32 → (office.terminalSettings (3 * 32 + b - 1)).configured = false)
      ∧ ((paused.line 0).phase = .pausing 1000 ∧ passed paused.uptime 1000 = true)
      ∧ passed ({ paused with uptime := 999 } : Device).uptime 1000 = false ∧ (∀ x, (office.line 0).phase ≠ .pausing x) := by
  refine ⟨rfl, by decide, fun c h hc => ?_, by decide, rfl, by decide, rfl, by decide, by decide, by decide, nofun⟩
  have : ∀ c, c < 33 → 3 < c → (office.terminalSettings (0 * 32 + c - 1)).configured = false := by decide
  exact absurd hc.2.2 (by rw [this c (by omega) h]; decide)

/-- Terminal 0 of the office with another record. -/
def withTerminal0 (t : Terminal) : Device := { office with terminals := ⟨[(0, t)]⟩ }

theorem test_PresenceFollowsThePolls :
    let d := withTerminal0 { presence := .present, window := [true, true, true, true, false, false, false, false] }
    let e := withTerminal0 { presence := .present, window := [true, true, true, false, false, false, false, false] }
    let lost := withTerminal0 { lostDeadline := some 1000 }
    (run d).device.running = true ∧ d.awaits 0 1 0 ∧ (withTerminal0 {}).awaits 0 1 0
      ∧ ((withTerminal0 {}).terminal 0).presence = .absent ∧ ((withTerminal0 {}).terminal 0).lostDeadline = none
      ∧ ((withTerminal0 { presence := .joining }).terminal 0).presence = .joining
      ∧ (d.terminal 0).presence = .present ∧ 3 ≤ ((d.terminal 0).window.drop 1).count true
      ∧ ((e.terminal 0).window.drop 1).count true < 3 ∧ lost.awaits 0 1 0 ∧ (lost.terminal 0).presence = .absent
      ∧ (lost.terminal 0).lostDeadline = some 1000 ∧ passed lost.uptime 1000 = true
      ∧ passed ({ lost with uptime := 999 } : Device).uptime 1000 = false
      ∧ (let rests : Device := { lost with lines := ⟨[(0, ⟨.pausing 1002, 7⟩)]⟩ }
        (rests.terminal 0).presence = .absent ∧ (rests.terminal 0).lostDeadline = some 1000) :=
  ⟨rfl, office_awaits _, office_awaits _, by decide, by decide, by decide, by decide, by decide, by decide,
    office_awaits _, by decide, by decide, by decide, by decide, by decide⟩

theorem office_binds (v : BitVec 64) (n : Nat)
    (h : (officeWork.credentials.entries.all fun e =>
      decide ((e.2.token1 = some v ∨ e.2.token2 = some v) → e.1 = n)) = true) (m : Nat) :
    (office.credentials m).token1 = some v ∨ (office.credentials m).token2 = some v → m = n := by
  refine office_credentials (fun m c => (c.token1 = some v ∨ c.token2 = some v) → m = n) (fun _ => ?_) h m
  rintro (h | h) <;> cases h

theorem test_BadgeOpensTheAccountsSession :
    let holds := fun (v : BitVec 64) n => (office.credentials n).token1 = some v ∨ (office.credentials n).token2 = some v
    let d := (inSession (.listing 0 900 2 [])).device
    (run office).device.running = true ∧ office.awaits 0 1 0 ∧ d.awaits 0 1 0 ∧ (office.terminal 0).presence = .present
      ∧ (office.terminal 0).ack ≠ true ∧ office.work.credentials.wf {} = true ∧ (∀ n, ¬ holds 9 n)
      ∧ (holds 4 3 ∧ (∀ m, holds 4 m → m = 3) ∧ office.usable 3 = false)
      ∧ (holds 5 4 ∧ (∀ m, holds 5 m → m = 4) ∧ office.usable 4 = true ∧ (office.accountSettings 4).pinRequired = true
        ∧ (office.credentials 4).digest = none)
      ∧ (holds 3 2 ∧ (∀ m, holds 3 m → m = 2) ∧ office.usable 2 = true ∧ (office.accountSettings 2).pinRequired = true
        ∧ (office.credentials 2).digest ≠ none ∧ ((office.terminal 0).accepted 1000 1045 true).session.account ≠ some 2)
      ∧ (holds 1 0 ∧ (∀ m, holds 1 m → m = 0) ∧ office.usable 0 = true ∧ (office.accountSettings 0).pinRequired = false
        ∧ (office.accountSettings 0).role = .user)
      ∧ (holds 2 1 ∧ (∀ m, holds 2 m → m = 1) ∧ office.usable 1 = true ∧ (office.accountSettings 1).pinRequired = false
        ∧ (office.accountSettings 1).role = .tech)
      ∧ ((d.terminal 0).accepted d.uptime (d.idleAt 0) true).session = .listing 0 (d.idleAt 0) 2 []
      ∧ (((inSession (.serviceMenu 1 900 none)).device.terminal 0).accepted 1000 (office.idleAt 0) true).session
        = .serviceMenu 1 (office.idleAt 0) none
      ∧ (((inSession (.pinWait 2 900)).device.terminal 0).accepted 1000 (office.idleAt 0) true).session
        = .pinWait 2 (office.idleAt 0) := by
  refine ⟨rfl, office_awaits _, office_awaits _, by decide, by decide, by decide, ?_,
    ⟨by decide, office_binds 4 3 (by decide), by decide⟩,
    ⟨by decide, office_binds 5 4 (by decide), by decide, by decide, by decide⟩,
    ⟨by decide, office_binds 3 2 (by decide), by decide, by decide, by decide, by decide⟩,
    ⟨by decide, office_binds 1 0 (by decide), by decide, by decide, by decide⟩,
    ⟨by decide, office_binds 2 1 (by decide), by decide, by decide, by decide⟩, by decide, by decide, by decide⟩
  exact office_credentials (fun _ c => ¬ (c.token1 = some 9 ∨ c.token2 = some 9)) (fun _ => by decide) (by decide)

theorem test_PinOpensOrLocks :
    let at_ := fun n => (inSession (.pinWait n 900)).device
    let last : Device := { at_ 2 with accounts := ⟨[(2, { failures := 4 })]⟩ }
    (run office).device.running = true ∧ office.awaits 0 1 0 ∧ (at_ 0).awaits 0 1 0 ∧ 0 < 128
      ∧ (office.terminal 0).presence = .present ∧ (office.terminal 0).ack ≠ true
      ∧ (∀ n x, (office.terminal 0).session ≠ .pinWait n x) ∧ ((at_ 3).terminal 0).session = .pinWait 3 900
      ∧ (at_ 3).usable 3 = false ∧ ((at_ 0).usable 0 = true ∧ ((at_ 0).accountSettings 0).pinRequired = false)
      ∧ ((at_ 4).usable 4 = true ∧ ((at_ 4).accountSettings 4).pinRequired = true ∧ ((at_ 4).credentials 4).digest = none)
      ∧ ((at_ 2).usable 2 = true ∧ ((at_ 2).accountSettings 2).pinRequired = true
        ∧ ((at_ 2).credentials 2).digest = some 5 ∧ (5 : BitVec 32) ≠ 6
        ∧ ((at_ 2).accountTotals 2).failures + 1 < (at_ 2).work.guard.failureLimit)
      ∧ (last.usable 2 = true ∧ last.work.guard.failureLimit ≤ (last.accountTotals 2).failures + 1
        ∧ last.enabled .accountLocked = true ∧ last.accounts.wf {} = true) :=
  ⟨rfl, office_awaits _, office_awaits _, by decide, by decide, by decide, nofun, by decide, by decide, by decide,
    by decide, by decide, by decide⟩

/-- Account 0 in LISTING at printer 0, with page references to ticket 0, to a slot without ticket and to a queued
ticket. -/
def listing : Device := (inSession (.listing 0 900 1 [⟨0, 10⟩, ⟨9, 77⟩, ⟨1, 11⟩])).device

/-- The same with printer 0 in a state and ticket 0 replaced. -/
def listingWith (st : PrinterState) (t : Ticket) : Device :=
  { listing with printers := ⟨[(0, { derived := st }), (1, { derived := .online })]⟩, tickets := ⟨[(0, some t)]⟩ }

theorem test_ReleaseRunsTheChecksInOrder :
    let t0 := held 10 0 10 10 5000
    let est := charge class2 .standard 10 0 10
    let coloured : Ticket := { t0 with mono := 9, colour := 1 }
    let mono : Device := { listingWith .online coloured with
      work := { officeWork with accounts := ⟨[(0, { active := true, colour := false })]⟩ } }
    let full : Device := { listing with queues := ⟨[(0, [1, 1, 1, 1, 1, 1, 1, 1])]⟩ }
    let spent : Device := { listing with accounts := ⟨[(0, { used := 966 })]⟩ }
    let poor : Device := { listing with work := { officeWork with tenants := ⟨[(0, { active := true, allowance := 34 })]⟩ } }
    (run listing).device.running = true ∧ listing.awaits 0 1 0 ∧ (listing.terminal 0).presence = .present
      ∧ (listing.terminal 0).ack ≠ true
      ∧ (listing.terminal 0).session = .listing 0 900 1 [⟨0, 10⟩, ⟨9, 77⟩, ⟨1, 11⟩]
      ∧ ([⟨0, 10⟩, ⟨9, 77⟩, ⟨1, 11⟩] : List PageRef)[4 - 1]? = none
      ∧ ([⟨0, 10⟩, ⟨9, 77⟩, ⟨1, 11⟩] : List PageRef)[2 - 1]? = some ⟨9, 77⟩ ∧ listing.ticket 9 = none
      ∧ ([⟨0, 10⟩, ⟨9, 77⟩, ⟨1, 11⟩] : List PageRef)[1 - 1]? = some ⟨0, 10⟩
      ∧ (listing.ticket 0 = some (held 10 0 10 10 500) ∧ (held 10 0 10 10 500).phase = .held
        ∧ (held 10 0 10 10 500).target = .printer 0)
      ∧ ((listingWith .online { t0 with target := .printer 1 }).configured 1 = true
        ∧ (listing.settings 1).group = (listing.settings 0).group
        ∧ ((listingWith .online { t0 with target := .printer 1 }).printer 1).derived = .online)
      ∧ ((listingWith .holdoff t0).printer 0).derived = .holdoff
      ∧ (((listingWith .degradedMono coloured).printer 0).derived = .degradedMono ∧ 0 < coloured.colour)
      ∧ ((mono.printer 0).derived = .online ∧ (mono.accountSettings 0).colour = false)
      ∧ (listing.printer 0).derived = .online ∧ 8 ≤ (full.queue 0).length ∧ (listing.queue 0).length < 8
      ∧ (est = 35 ∧ (spent.accountSettings 0).allowance ≠ 4294967295
        ∧ ((spent.accountSettings 0).allowance : Int) - (spent.accountTotals 0).used - (spent.accountTotals 0).reserved < est)
      ∧ ((poor.tenantSettings 0).allowance ≠ 4294967295
        ∧ ((poor.tenantSettings 0).allowance : Int) - (poor.tenantTotals 0).used - (poor.tenantTotals 0).reserved < est) :=
  ⟨rfl, office_awaits _, by decide, by decide, by decide, rfl, rfl, rfl, rfl, ⟨rfl, rfl, rfl⟩, by decide, by decide,
    by decide, by decide, by decide, by decide, by decide, by decide, by decide⟩

theorem test_QueueHeadIsPromotedOrWaits :
    let t1 : Ticket := { held 11 0 10 10 5000 with phase := .queued ⟨0, 35, 2, class2⟩ }
    let full : Device := { office with grants := List.replicate 32 ⟨12, 2, 1⟩ }
    office.queue 0 = 1 :: [] ∧ office.ticket 1 = some t1 ∧ t1.phase = .queued ⟨0, 35, 2, class2⟩
      ∧ (office.printer 0).derived = .online ∧ office.grants.length < 32 ∧ 32 ≤ full.grants.length
      ∧ (∀ n rest t adm, office.queue 7 = n :: rest → office.ticket n = some t → t.phase = .queued adm →
        ¬ ((office.printer 7).derived = .online ∨ (office.printer 7).derived = .degradedMono ∧ t.colour = 0)) :=
  ⟨rfl, rfl, rfl, by decide, by decide, by decide, fun _ _ _ _ h => by cases h⟩

/-- A page with an entry at another printer, one greyed and one available, in the order of their sequences. -/
theorem test_ListingPageHoldsItsEntries :
    let t0 := held 10 0 10 10 5000
    let d : Device := { listingWith .degradedMono t0 with tickets := ⟨[(0, some { t0 with sequence := 9 }),
      (1, some { t0 with jobId := 11, colour := 1, mono := 9, target := .group 4, sequence := 7 }),
      (2, some { t0 with jobId := 12, target := .printer 1, sequence := 8 })]⟩ }
    listing.tickets.wf none = true ∧ d.tickets.wf none = true
      ∧ (d.eligibleTickets 0 0).map Prod.fst = [1, 2, 0] ∧ (d.listingPage 0 0 9).number = 1
      ∧ (d.listingPage 0 0 1).entries.map PageEntry.availability = [.colourUnavailable, .atOther, .available]
      ∧ (d.listingPage 0 0 1).budget = some 1000 ∧ (d.listingPage 0 0 1).readiness = .monoOnly := by decide +kernel

theorem test_ListingKeysActOnThePage :
    (run listing).device.running = true ∧ listing.awaits 0 1 0 ∧ (listing.terminal 0).presence = .present
      ∧ (listing.terminal 0).ack ≠ true ∧ listing.eligible 0 0 (held 10 0 10 10 500) = true
      ∧ (∀ t, listing.ticket 1 = some t → listing.eligible 0 0 t = false) ∧ 1 ≤ 4 ∧ listing.tickets.wf none = true
      ∧ listing.eligibleTickets 0 0 = [(0, held 10 0 10 10 500)] := by
  refine ⟨rfl, office_awaits _, by decide, by decide, by decide, fun t h => ?_, by decide, by decide, by decide⟩
  cases h
  decide

/-- A technician in SERVICE_MENU at printer 0. -/
def menu (r : Printer) (c : List (Nat × Option Callout)) : Device :=
  { withPrinter0 r with
    callouts := ⟨c⟩, terminals := ⟨[(0, { presence := .present, session := .serviceMenu 1 900 none })]⟩ }

theorem test_ServiceKeysMoveThePrinter :
    let c := calloutAt (.attended 2)
    let o := calloutAt (.opened 900)
    let d := menu { faulty with inService := true } [(3, some c)]
    let e := menu faulty [(3, some o)]
    (run d).device.running = true ∧ d.awaits 0 1 0 ∧ (d.terminal 0).presence = .present ∧ (d.terminal 0).ack ≠ true
      ∧ (d.terminal 0).session = .serviceMenu 1 900 none ∧ d.callouts.wf none = true
      ∧ (menu { retired := true } []).live 0 = false ∧ d.live 0 = true ∧ (d.printer 0).inService = true
      ∧ (d.callout 3 = some c ∧ c.printer = 0 ∧ (∀ m k, d.callout m = some k → k.printer = 0 → m = 3)
        ∧ c.phase = .attended 2)
      ∧ (∀ n k, (menu { inService := true } []).callout n = some k → k.printer ≠ 0)
      ∧ (e.live 0 = true ∧ (e.printer 0).inService = false ∧ e.callout 3 = some o
        ∧ ∀ m k, e.callout m = some k → k.printer = 0 → m = 3)
      ∧ ((d.fault 0 .mechanism).latched = true ∧ (d.fault 0 .mechanism).active = true
        ∧ (d.policy .mechanism).callout = true)
      ∧ (∀ cls, ¬ (((menu { inService := true } []).fault 0 cls).latched = true)) := by
  refine ⟨rfl, ⟨by decide, by decide, by decide, ⟨_, rfl⟩, by decide⟩, by decide, by decide, by decide, by decide,
    by decide, by decide, by decide, ⟨rfl, rfl, every (by decide), rfl⟩, every (by decide), ⟨by decide, by decide, rfl, every (by decide)⟩, by decide,
    fun cls => ?_⟩
  cases cls <;> decide

/-- SERVICE DONE at a printer without a record, its MECHANISM latched and active: a record is free, or all 32 are in use. -/
theorem test_ServiceKeysMoveThePrinter_opens :
    let d := menu { faulty with inService := true, derived := .service } []
    let full := menu { faulty with inService := true, derived := .service }
      ((List.range 32).map fun n => (n, some { calloutAt (.opened 900) with serial := BitVec.ofNat 16 n, printer := n + 1 }))
    (d.live 0 = true ∧ (d.printer 0).inService = true ∧ d.callout 0 = none ∧ (∀ m, m < 0 → d.callout m ≠ none)
        ∧ (d.fault 0 .mechanism).latched = true ∧ (d.fault 0 .mechanism).active = true
        ∧ (d.policy .mechanism).callout = true ∧ FaultClass.mechanism ≠ .serviceDue)
      ∧ (∀ n c, d.callout n = some c → c.printer ≠ 0)
      ∧ (full.callouts.wf none = true ∧ (∀ n, n < 32 → full.callout n ≠ none) ∧ full.isPending 0 = false
        ∧ full.live 0 = true ∧ (full.printer 0).inService = true)
      ∧ (∀ n c, full.callout n = some c → c.printer ≠ 0)
      ∧ ({ full with pendingList := [⟨0, .jam, none, 900⟩] } : Device).isPending 0 = true :=
  ⟨⟨by decide, by decide, by decide, nofun, by decide⟩, every (by decide), by decide +kernel, every (by decide +kernel),
    by decide⟩

/-- A technician in SERVICE_MENU at printer 1, whose PRINTING ticket has the given accumulators. -/
def menuAt1 (acc : Totals) : Device := { office with
  tickets := busy.device.tickets
  printers := ⟨[(0, { derived := .online }), (1, { derived := .online, printing := acc, lastAdvance := some 600 })]⟩
  terminals := ⟨[(2, { presence := .present, session := .serviceMenu 1 900 none })]⟩
  lines := ⟨[(0, ⟨.polling 3 (.poll true false none), 0⟩)]⟩ }

theorem test_ServiceKeysMoveThePrinter_queue :
    let d := menuAt1 ⟨10, 0, 5⟩
    let e : Device := { menu {} [] with
      tickets := busy.device.tickets, printers := ⟨[(0, { derived := .online }), (1, { derived := .online })]⟩ }
    d.awaits 0 3 2 ∧ (d.terminal 2).session = .serviceMenu 1 900 none ∧ d.live 1 = true ∧ (d.printer 1).inService = false
      ∧ d.queuesInStep ∧ d.tickets.wf none = true ∧ (d.printer 1).derived ≠ .service ∧ d.queue 1 = [2]
      ∧ d.ticket 2 = some { held 12 0 10 10 5000 with phase := .printing ⟨1, 15, 5, class5⟩ false 900 }
      ∧ (d.printer 1).printing ≠ {} ∧ ((menuAt1 {}).printer 1).printing = {}
      ∧ (e.awaits 0 1 0 ∧ e.live 0 = true ∧ e.queuesInStep ∧ (e.printer 0).derived ≠ .service ∧ e.queue 0 = [1]
        ∧ e.ticket 1 = some { held 11 0 10 10 5000 with phase := .queued ⟨0, 35, 2, class2⟩ }) :=
  ⟨⟨by decide, by decide, by decide, ⟨_, rfl⟩, rfl⟩, rfl, by decide, rfl, inStep_of (every (by decide)) ⟨_, _, rfl, rfl, rfl⟩ ⟨_, _, rfl, rfl, rfl⟩ rfl, by decide, by decide, rfl, rfl,
    by decide, rfl, ⟨by decide, by decide, by decide, ⟨_, rfl⟩, rfl⟩, by decide, inStep_of (every (by decide)) ⟨_, _, rfl, rfl, rfl⟩ ⟨_, _, rfl, rfl, rfl⟩ rfl, by decide, rfl, rfl⟩

/-- ATTEND settles the PRINTING ticket from the accumulators, 10 mono sides on 5 sheets at class 5 for 11 CU, or returns it to
HELD with the reprint mark where all are 0. -/
theorem test_attend_ends_the_printing_ticket :
    let e := (ran (.attend 0 true) (run (menuAt1 ⟨10, 0, 5⟩))).device
    let f := (ran (.attend 0 true) (run (menuAt1 {}))).device
    (e.printer 1).derived = .service ∧ e.ticket 2 = none ∧ (e.accountTotals 0).used = 11 ∧ e.grants = [] ∧ e.queue 1 = []
      ∧ f.ticket 2 = some { held 12 0 10 10 5000 with reprint := true } ∧ f.grants = [] := by
  decide +kernel

theorem test_ServiceKeysMoveThePrinter_hands :
    let d : Device := { crowded { inService := true, derived := .service } with
      terminals := ⟨[(0, { presence := .present, session := .serviceMenu 1 900 none })]⟩ }
    let e := (ran (.serviceDone 0 true) (run d)).device
    d.awaits 0 1 0 ∧ d.live 0 = true ∧ d.callouts.wf none = true ∧ (∀ m k, d.callout m = some k → k.printer = 0 → m = 3)
      ∧ (∀ cls, (d.fault 0 cls).latched = false) ∧ e.needsVisit 1 = true :=
  ⟨⟨by decide, by decide, by decide, ⟨_, rfl⟩, rfl⟩, by decide, by decide +kernel, every (by decide +kernel),
    fun cls => by cases cls <;> rfl, by decide +kernel⟩

theorem test_SessionsEndAndFollowUpsShow :
    let s := (inSession (.listing 0 1000 1 [])).device
    let later : Device := { s with uptime := 999 }
    let f := withTerminal0 { presence := .present, session := .listing 0 5000 1 [], follow := some (1000, .jobList 1) }
    let g := withTerminal0 { presence := .present, follow := some (1001, .welcome) }
    (run s).device.running = true ∧ s.awaits 0 1 0 ∧ ((withTerminal0 {}).terminal 0).presence = .absent
      ∧ (s.terminal 0).presence = .present ∧ (s.terminal 0).ack = false ∧ (s.terminal 0).ack ≠ true
      ∧ (s.terminal 0).session.idle = some 1000 ∧ passed s.uptime 1000 = true ∧ passed later.uptime 1000 = false
      ∧ (f.terminal 0).follow = some (1000, .jobList 1) ∧ passed f.uptime 1000 = true
      ∧ (g.terminal 0).follow = some (1001, .welcome) ∧ passed g.uptime 1001 = false
      ∧ ((s.terminal 0).accepted 1000 1045 true).session = .listing 0 1045 1 []
      ∧ (((inSession (.pinWait 0 900)).device.terminal 0).accepted 1000 1045 true).session = .pinWait 0 1045
      ∧ (((inSession (.serviceMenu 1 900 none)).device.terminal 0).accepted 1000 1045 true).session
        = .serviceMenu 1 1045 none
      ∧ ((office.terminal 0).accepted 1000 1045 true).session = .none
      ∧ (let j := withTerminal0 { presence := .joining, joinPolls := 3 }
        j.awaits 0 1 0 ∧ (j.terminal 0).presence = .joining ∧ (withTerminal0 {}).awaits 0 1 0)
      ∧ (let rests : Device := { s with lines := ⟨[(0, ⟨.pausing 1002, 7⟩)]⟩ }
        (rests.terminal 0).presence = .present ∧ (rests.terminal 0).session.idle = some 1000)
      ∧ (let rests : Device := { f with lines := ⟨[(0, ⟨.pausing 1002, 7⟩)]⟩ }
        (rests.terminal 0).presence = .present ∧ (rests.terminal 0).follow = some (1000, .jobList 1)) :=
  ⟨rfl, office_awaits _, by decide, by decide, by decide, by decide, by decide, by decide, by decide, by decide,
    by decide, by decide, by decide, by decide, by decide, by decide, by decide,
    ⟨office_awaits _, by decide, office_awaits _⟩, by decide, by decide⟩

/-! ## Supplies -/

/-- Channel C of printer 0 as the cartridge sequence of spec 08 begins, with the anchor after the first delta. -/
def cyan (f : Forecast) : Device := { office with
  work := { officeWork with forecast := { shift := 2, floorColour := 10 } }
  printers := ⟨[(0, { derived := .online, throughputColour := some 300
                      forecasts := { ({} : Printer).forecasts with c := f } })]⟩ }

def cyanStart : Forecast := { p := some 62, pk := some 62, anchor := 210, rate := some 80, days := some 16 }

theorem test_LevelsMoveTheForecast :
    let d := cyan cyanStart
    let marked : Device := withPrinter0 { marks := { allChannels with k := true } }
    (0 < 128 ∧ 127 < 128) ∧ (100 ≤ 100 ∨ 100 = 255) ∧ (marked.printer 0).marks.get .c = true ∧ (d.printer 0).marks.get .c = false
      ∧ (office.forecast 0 .c).pk = none ∧ (d.forecast 0 .c).pk = some 62 ∧ 62 + d.work.forecast.swap ≤ 92
      ∧ (61 < 62 ∧ 61 < 62 + d.work.forecast.swap) ∧ (62 ≤ 91 ∧ 91 < 62 + d.work.forecast.swap)
      ∧ (d.printer 0).inService = false
      ∧ ((withPrinter0 { inService := true, forecasts := { ({} : Printer).forecasts with c := cyanStart } }).printer 0).inService
        = true := by decide

/-- An install of a configured kind with spares and without, of an unconfigured kind, and a drop that takes D below the
lead time. -/
theorem test_LevelsMoveTheForecast_demand :
    let kinds : ByChannel (Option Nat) := { noKinds with c := some 5, m := some 6 }
    let at_ := { ({} : Printer).forecasts with c := { cyanStart with days := some 7 }, m := cyanStart }
    let d : Device := { withPrinter0 { derived := .online, throughputColour := some 300, forecasts := at_ } with
      work := { officeWork with printers := ⟨[(0, ⟨true, 2, 4, none, allChannels, kinds, 60, 3, 0⟩)]⟩ } }
    let e := d.takeLevel 0 .c 24
    ((d.forecast 0 .c).pk = some 62 ∧ 62 + d.work.forecast.swap ≤ 92 ∧ (d.printer 0).marks.get .c = false)
      ∧ ((d.settings 0).kinds.get .c = some 5 ∧ (d.kindSettings 5).configured = true ∧ (d.kind 5).onHand ≠ 0)
      ∧ (({ d with stock := ⟨[]⟩ } : Device).kind 5).onHand = 0 ∧ d.enabled .unstockedInstall = true
      ∧ ((d.settings 0).kinds.get .m = some 6 ∧ (d.kindSettings 6).configured = false ∧ (d.settings 0).kinds.get .k = none)
      ∧ ((d.kindSettings 5).leadTime = 7 ∧ (d.forecast 0 .c).days = some 7
        ∧ (e.forecast 0 .c).days.any (· < 7) = true) := by
  decide +kernel

/-- A level 0 makes the printer, neither low nor out before, low and out. -/
theorem test_LevelsMoveTheForecast_low :
    let d := cyan cyanStart
    let e := d.takeLevel 0 .c 0
    (d.printer 0).low = false ∧ (d.printer 0).out = false
      ∧ (∀ j days, (d.forecast 0 j).days = some days → ¬ days ≤ d.work.forecast.lowWarning)
      ∧ (∀ j, (d.forecast 0 j).p ≠ some 0) ∧ e.live 0 = true ∧ (e.settings 0).channels.get .c = true
      ∧ (e.forecast 0 .c).days = some 0 ∧ (e.forecast 0 .c).p = some 0
      ∧ d.enabled .supplyLow = true ∧ d.enabled .supplyOut = true := by
  refine ⟨rfl, rfl, fun j days h => ?_, fun j => ?_, by decide +kernel, by decide +kernel, by decide +kernel, by decide +kernel,
    by decide, by decide⟩
  · cases j <;> cases h
    decide
  · cases j <;> decide

/-- Events 1, 4 and 5 of the cartridge sequence of spec 08. -/
theorem test_worked_cartridge :
    (((cyan cyanStart).takeLevel 0 .c 59).forecast 0 .c) = ⟨some 59, some 59, 0, some 78, some 70, some 15, false⟩
      ∧ (((cyan ⟨some 58, some 58, 6, some 76, some 70, some 14, false⟩).takeLevel 0 .c 55).forecast 0 .c)
        = ⟨some 55, some 55, 0, some 58, some 2, some 10, true⟩
      ∧ (((cyan ⟨some 55, some 55, 0, some 58, some 2, some 10, true⟩).takeLevel 0 .c 92).forecast 0 .c)
        = ⟨some 92, some 92, 0, some 58, none, some 17, false⟩ := by decide +kernel

theorem test_DayRolloverSmoothsTheThroughputs :
    let d : Device := { office with wall := 20000, wallValid := true, nextRollover := some 20000 }
    let e : Device := { d with wall := 19999 }
    let supplies : ByChannel Forecast :=
      ⟨{}, { p := some 10, pk := some 10, rate := some 10 }, { p := some 0, pk := some 0 }, {}, {}, {}⟩
    let near : Device := { d with
      printers := ⟨[(0, { derived := .online, dailyColour := 300, forecasts := supplies })]⟩ }
    let after_ := (ran .dayRollover (run near)).device
    ((near.printer 0).low = false ∧ (near.printer 0).out = false ∧ (after_.forecast 0 .c).days = some 0
        ∧ (after_.forecast 0 .m).p = some 0 ∧ near.enabled .supplyLow = true ∧ near.enabled .supplyOut = true)
      ∧ (run d).device.running = true ∧ d.canonical ∧ d.work.forecast.rolloverHour ≤ 23 ∧ d.wall.toNat + 86400 < 2 ^ 32
      ∧ d.wallValid = true ∧ d.nextRollover = some 20000 ∧ passed d.wall 20000 = true ∧ passed e.wall 20000 = false
      ∧ office.wallValid = false ∧ d.live 0 = true ∧ d.live 7 = false
      ∧ (d.settings 0).channels.get .c = true ∧ (∀ p, d.configured p = true → p < 128) :=
  ⟨by decide +kernel, rfl, canonical_of (by unfold Device.tablesCanonical; decide) (by unfold Settings.canonical; decide)
    (by unfold Settings.canonical; decide) rfl, by decide, by decide, rfl, rfl, by decide, by decide, rfl, by decide,
    by decide, by decide, office_slots⟩

/-! ## Stock and orders -/

/-- Kind 5 of the order sequence of spec 09 with its reorder point raised: two on hand, no order open. -/
def low : Device := { office with
  work := { officeWork with kinds := ⟨[(5, ⟨true, 41027, 3, 8, 4, 7, 2⟩)]⟩ }, orders := ⟨[]⟩, orderSerial := 40 }

def fullOrders : Table (Option Order) :=
  ⟨(List.range 64).map fun n => (n, some ⟨BitVec.ofNat 16 n, 3, 1, 0, .proposed, 0, none⟩)⟩

theorem test_KindIsEvaluatedForAProposal :
    let wants := fun d : Device => (d.kindSettings 5).configured = true
      ∧ (((d.kind 5).onHand : Int) + d.onOrder 5 - d.demand 5 < (d.kindSettings 5).reorderPoint) ∧ (d.kind 5).hold = false
    let full : Device := { low with orders := fullOrders }
    let blocked : Device := { full with stock := ⟨[(5, { onHand := 2, blocked := true })]⟩ }
    low.orders.wf none = true ∧ wants low ∧ (∀ n o, low.order n = some o → o.kind = 5 → o.phase ≠ .proposed)
      ∧ (0 < 64 ∧ low.order 0 = none ∧ ∀ m, m < 0 → low.order m ≠ none)
      ∧ (∀ m o, low.order m = some o → m < 64) ∧ ¬ wants office
      ∧ full.orders.wf none = true ∧ wants full ∧ (∀ n o, full.order n = some o → o.kind = 5 → o.phase ≠ .proposed)
      ∧ (∀ n, n < 64 → full.order n ≠ none) ∧ (full.kind 5).blocked = false ∧ wants blocked
      ∧ (blocked.kind 5).blocked = true :=
  ⟨by decide, by decide +kernel, every (by decide), ⟨by decide, by decide, nofun⟩, every (by decide), by decide +kernel,
    by decide +kernel, by decide +kernel, every (by decide +kernel), by decide +kernel, by decide, by decide +kernel,
    by decide⟩

theorem test_OrderRequestsMoveTheOrder :
    (run office).device.running = true ∧ 255 < 256 ∧ 64 ≤ 64 ∧ 63 < 64
      ∧ (∀ o, office.order 63 = some o → o.serial ≠ 40)
      ∧ (∃ o, office.order 0 = some o ∧ o.serial = 40 ∧ o.phase = .proposed)
      ∧ (∀ k, k < 16 → k ≠ 5 → (office.kind k).blocked = false) ∧ (some 255 : Option Nat) ≠ some 0 ∧ 255 < 256
      ∧ (∃ o, office.order 1 = some o ∧ o.serial = 41 ∧ o.phase = .placed ⟨500, none, 900, false⟩)
      ∧ passed office.uptime 900 = true ∧ passed ({ office with uptime := 899 } : Device).uptime 900 = false :=
  ⟨rfl, by decide, by decide, by decide, nofun, ⟨_, rfl, rfl, rfl⟩, by decide, by decide, by decide, ⟨_, rfl, rfl, rfl⟩,
    by decide, by decide⟩

/-- Orders of kind 5 whose freed records find kind 6 blocked. -/
theorem test_orders_freed_before_a_blocked_kind :
    let d : Device := { office with stock := ⟨[(5, { onHand := 2 }), (6, { blocked := true })]⟩ }
    (∃ o, d.order 0 = some o ∧ o.kind = 5 ∧ o.phase = .proposed)
      ∧ (∃ o, d.order 1 = some o ∧ o.kind = 5 ∧ o.phase = .placed ⟨500, none, 900, false⟩ ∧ o.quantity ≤ o.received + 12)
      ∧ (d.kind 6).blocked = true ∧ ((d.evaluate 5).offered.kind 6).blocked = false :=
  ⟨⟨_, rfl, rfl, rfl⟩, ⟨_, rfl, rfl, rfl, by decide⟩, by decide, by decide +kernel⟩

theorem test_StockCountsFollowDeliveriesAndAdjustments :
    (run office).device.running = true ∧ 16 < 256 ∧ 16 ≤ 16 ∧ 65535 < 65536 ∧ 999 < 1000 ∧ 15 < 16
      ∧ (office.kindSettings 15).configured = false ∧ (office.kindSettings 5).configured = true ∧ 64 ≤ 64 ∧ 1 ≤ 1
      ∧ 63 < 64 ∧ (∀ o, office.order 63 = some o → o.serial ≠ 40)
      ∧ (∃ o, office.order 0 = some o ∧ o.serial = 40 ∧ o.phase = .proposed)
      ∧ (∃ o, office.order 1 = some o ∧ o.serial = 41 ∧ o.phase = .placed ⟨500, none, 900, false⟩
        ∧ o.received + 11 < o.quantity ∧ o.quantity ≤ o.received + 12)
      ∧ (∀ j, j < 16 → j ≠ 5 → (office.kind j).blocked = false) :=
  ⟨rfl, by decide, by decide, by decide, by decide, by decide, by decide, by decide, by decide, by decide, by decide,
    nofun, ⟨_, rfl, rfl, rfl⟩, ⟨_, rfl, rfl, rfl, by decide, by decide⟩, by decide⟩

/-! ## Attention, store, power and reading -/

theorem test_FlagsAreRaisedAcknowledgedAndEnabled :
    let d : Device := { office with attention := ⟨⟨[(10 * 128, some 501), (11 * 128, some 502)]⟩, 502⟩ }
    let muted : Device := { d with work := { officeWork with enables := { flags := ⟨[(11, false)]⟩ } } }
    (run d).device.running = true ∧ d.saving = false ∧ d.enabled .jobTimeout = true ∧ muted.enabled .jobTimeout = false
      ∧ d.attention.stamps.wf none = true
      ∧ (let three : List (Nat × Nat × Nat) := [(0, Flag.terminalLost.number, 127), (1, Flag.jobTimeout.number, 255), (2, 6, 0)]
        1 ≤ three.length ∧ (List.replicate 16 (2, 6, 0) : List (Nat × Nat × Nat)).length ≤ 16
          ∧ (∀ x ∈ three, x.1 < 256 ∧ x.2.1 < 256 ∧ x.2.2 < 256)
          ∧ Flag.ofNumber Flag.terminalLost.number = some .terminalLost ∧ Flag.terminalLost.indexed = true
          ∧ (∀ x ∈ three, x.1 = 0 ∧ x.2.2 < 128 ∨ x.1 = 1 ∧ x.2.1 < 26 ∨ x.1 = 2 ∧ x.2.1 < 7))
      ∧ (∃ x ∈ [((0, Flag.jobTimeout.number, 0) : Nat × Nat × Nat)], ¬ (x.1 = 0 ∧ Flag.jobTimeout.indexed = true) ∧ x.1 ≠ 1 ∧ x.1 ≠ 2)
      ∧ (1 ≤ ((502 : BitVec 32) - 501).toNat ∧ ((502 : BitVec 32) - 501).toNat ≤ 2147483647)
      ∧ d.stamp .jobTimeout 0 = some 502 ∧ d.stamp .grantsWaiting 0 = some 501 ∧ d.causeHolds .grantsWaiting 0 = true
      ∧ (List.replicate 7 true).length = 7 ∧ (List.replicate 26 false).length = 26 := by decide +kernel

theorem test_StoreClockAndPowerCommandsAct :
    let off : Device := { office with mainPower := false }
    let low_ : Device := { office with rstnLow := true }
    let both : Device := { office with mainPower := false, rstnLow := true }
    (run office).device.running = true ∧ office.saving = false ∧ office.store.saving = none
      ∧ busy.device.store.saving = some officeWork ∧ office.work.forecast.rolloverHour ≤ 23
      ∧ (4294880895 : BitVec 32).toNat + 86400 < 2 ^ 32 ∧ off.mainPower = false ∧ office.mainPower = true
      ∧ (both.mainPower = false ∧ both.rstnLow = true) ∧ office.rstnLow = false ∧ low_.rstnLow = true := by decide

theorem test_StartsLoadTheStoreAndRaiseTheirFlags :
    let off : Device := { office with mainPower := false }
    let low_ : Device := { office with rstnLow := true }
    let new : Device := { State.reset.device with mainPower := false, markerValid := false }
    (off.mainPower = false ∧ off.rstnLow = false) ∧ (low_.mainPower = true ∧ low_.rstnLow = true)
      ∧ (run office).device.running = true ∧ (run office).device.saving = false
      ∧ (new.mainPower = false ∧ new.rstnLow = false ∧ new.markerValid = false ∧ new.comparator = false
        ∧ new.store = State.reset.device.store) := by decide

/-- At a start that finds a good store the working copy becomes the stored image; with a valid marker uptime goes on. -/
theorem loads {d e : Device} (he : (ran .mainPowerOn (run d)).device = e) (hm : d.mainPower = false)
    (hr : d.rstnLow = false) (hc : d.store.checksumGood = true) :
    e.work = d.store.image ∧ (d.markerValid = true → e.uptime = d.uptime) := by
  have start : e = ({ d with mainPower := true } : Device).checkRetained.startFrom .mainPower (!d.markerValid) d.comparator := by
    rw [← he]
    simp [ran, run, exec, execMainPowerOn, mainPowerOn, Device.startUp, hm, hr]
  have h := Device.startFrom_same .mainPower (!d.markerValid) d.comparator start
  refine ⟨h.2.2.2.2.2.2.2.2.2.1.trans ?_, fun hv => h.1.trans ?_⟩
  · cases hv : d.markerValid <;> simp [Device.loadSettings, Device.checkRetained, Device.loseRetained, hc]
  · simp [Device.checkRetained, hv]

/-- The marker lost and the image kept: the working copy is the image, in which kind 5 has a reorder point above 0. -/
theorem test_StartsLoadTheStoreAndRaiseTheirFlags_loss :
    let d : Device := { low with mainPower := false, markerValid := false, store := { image := low.work, checksumGood := true } }
    (d.mainPower = false ∧ d.rstnLow = false ∧ d.markerValid = false)
      ∧ ∃ e, (ran .mainPowerOn (run d)).device = e ∧ (5 < 16 ∧ (e.kindSettings 5).configured = true ∧ 0 < (e.kindSettings 5).reorderPoint ∧ e.configured 0 = true
        ∧ e.configured 7 = false) := by
  intro d
  obtain ⟨e, he⟩ : ∃ e, (ran .mainPowerOn (run d)).device = e := ⟨_, rfl⟩
  have work : e.work = low.work := (loads he rfl rfl rfl).1
  refine ⟨by decide, e, he, ?_⟩
  unfold Device.kindSettings Device.configured Device.settings
  rw [work]
  decide

/-- The office with main power off and a good store: the image it will load, the tickets' target and expiry, the accumulators
of printer 1 and its callout. -/
def asleep (image : Settings) (target : Target) (expiry : Time) (acc : Totals) (callout : Callout) : Device := { office with
  mainPower := false
  markerValid := true
  store := { image := image, checksumGood := true }
  printers := ⟨[(0, { derived := .online }), (1, { derived := .online, printing := acc, lastAdvance := some 600 })]⟩
  callouts := ⟨[(3, some { callout with printer := 1 })]⟩
  pendingList := [⟨7, .mechanism, none, 900⟩]
  stock := ⟨[(5, { onHand := 2, hold := true })]⟩
  tickets := ⟨[(0, some { held 10 0 10 10 expiry with target := target }),
    (1, some { held 11 0 10 10 expiry with target := target, phase := .queued ⟨0, 35, 2, class2⟩ }),
    (2, some { held 12 0 10 10 expiry with target := target, phase := .printing ⟨1, 15, 5, class5⟩ false 900 })]⟩ }

/-- The office's settings with one of its two printers alone. -/
def only (p : Nat) : Settings := { officeWork with printers := ⟨[(p, officeWork.printers.get {} p)]⟩ }

theorem asleep_canonical (image : Settings) (target : Target) (expiry : Time) (acc : Totals) (callout : Callout)
    (hi : image.canonical) (ht : (asleep image target expiry acc callout).tablesCanonical) :
    (asleep image target expiry acc callout).canonical :=
  canonical_of ht (show officeWork.canonical by unfold Settings.canonical; decide) hi rfl

theorem only_canonical : (only 0).canonical ∧ (only 1).canonical := by
  unfold Settings.canonical
  decide

theorem asleep_inStep (image : Settings) (target : Target) (expiry : Time) (acc : Totals) (callout : Callout) :
    (asleep image target expiry acc callout).queuesInStep := by
  have ticket : ∀ n t, (asleep image target expiry acc callout).ticket n = some t → t.jobId = n + 10
      ∧ (t.phase.admitted.map Admitted.printer) = (if n = 1 then some 0 else if n = 2 then some 1 else none) := by
    intro n
    refine get_ind none (asleep image target expiry acc callout).tickets (fun n o => ∀ u, o = some u → u.jobId = n + 10
      ∧ (u.phase.admitted.map Admitted.printer) = (if n = 1 then some 0 else if n = 2 then some 1 else none))
      (fun _ _ h => by cases h) ?_ n
    intro e he u hu
    simp only [asleep, List.mem_cons, List.not_mem_nil, or_false] at he
    obtain rfl | rfl | rfl := he <;> cases hu <;> exact ⟨rfl, rfl⟩
  exact inStep_of ticket ⟨_, _, rfl, rfl, rfl⟩ ⟨_, _, rfl, rfl, rfl⟩ rfl

/-- A start from which the load of printer 1 alone, or of printer 0 alone, takes the other away: the three kinds of start,
owners active or not, each phase at a lost and at a kept slot, targets lost or not, deadlines passed or not. -/
theorem test_StartsReconcileTicketsAndAccounts :
    let opened := calloutAt (.opened 900)
    let d := asleep (only 1) (.printer 0) 5000 {} opened
    let d' := asleep (only 0) (.group 4) 500 ⟨10, 0, 5⟩ opened
    let none_ := asleep {} (.group 4) 500 {} opened
    let awake : Device := { d with mainPower := true }
    ∃ e e' f, (ran .mainPowerOn (run d)).device = e ∧ (ran .mainPowerOn (run d')).device = e'
      ∧ (ran .mainPowerOn (run none_)).device = f ∧ (run d).restartsBy (run d) .mainPowerOn
      ∧ (run { awake with rstnLow := true }).restartsBy (run { awake with rstnLow := true }) .externalReset
      ∧ (run awake).restartsBy ((run awake).offer 0x09 7 []) .softReset
      ∧ d.canonical ∧ d.queuesInStep ∧ d'.canonical ∧ d'.queuesInStep
      ∧ ((e.accountSettings 0).active = true ∧ (e.tenantSettings 0).active = true ∧ (f.accountSettings 0).active = false)
      ∧ (d.losesSlot e 0 ∧ ¬ d.losesSlot e 1 ∧ d'.losesSlot e' 1 ∧ ¬ d'.losesSlot e' 0)
      ∧ (passed d.uptime 5000 = false ∧ passed d'.uptime 500 = true)
      ∧ ((d.printer 1).printing = {} ∧ (d'.printer 1).printing ≠ {} ∧ (d.printer 1).inService = false) := by
  intro opened d d' none_ awake
  obtain ⟨e, he⟩ : ∃ e, (ran .mainPowerOn (run d)).device = e := ⟨_, rfl⟩
  obtain ⟨e', he'⟩ : ∃ e, (ran .mainPowerOn (run d')).device = e := ⟨_, rfl⟩
  obtain ⟨f, hf⟩ : ∃ e, (ran .mainPowerOn (run none_)).device = e := ⟨_, rfl⟩
  have we : e.work = only 1 := (loads he rfl rfl rfl).1
  have we' : e'.work = only 0 := (loads he' rfl rfl rfl).1
  have wf : f.work = {} := (loads hf rfl rfl rfl).1
  refine ⟨e, e', f, he, he', hf, ?_⟩
  refine ⟨.inl ⟨rfl, rfl, rfl, rfl, rfl⟩, .inr (.inl ⟨rfl, rfl, rfl, rfl, rfl⟩), .inr (.inr ⟨rfl, rfl, rfl, 7, rfl⟩),
    asleep_canonical _ _ _ _ _ only_canonical.2 (by unfold Device.tablesCanonical; decide), asleep_inStep _ _ _ _ _,
    asleep_canonical _ _ _ _ _ only_canonical.1 (by unfold Device.tablesCanonical; decide), asleep_inStep _ _ _ _ _, ?_, ?_,
    by decide, by decide⟩
  · unfold Device.accountSettings Device.tenantSettings
    rw [we, wf]
    decide
  · unfold Device.losesSlot Device.configured Device.settings
    rw [we, we']
    decide

/-- The same start for printers, callouts and stock: a slot lost and a slot kept, one that joins, a retired one, a channel that
leaves the set, a rollover due or not, callouts in each phase with deadlines passed or not, a kind kept and one lost. -/
theorem test_StartsKeepPrintersCalloutsAndStock :
    let opened := calloutAt (.opened 900)
    let d := asleep (only 0) (.group 4) 5000 {} opened
    let d' : Device := asleep (only 1) (.group 4) 5000 {} (calloutAt (.dispatched 1001))
    let fewer : Settings := { officeWork with
      printers := ⟨[(0, { officeWork.printers.get {} 0 with channels := { allChannels with c := false } })]⟩, kinds := ⟨[]⟩ }
    let c := asleep fewer (.group 4) 5000 {} (calloutAt (.attended 2))
    let joins : Device := { d with work := only 1 }
    let rolled : Device := { d with wallValid := true, wall := 20000, nextRollover := some 20000 }
    ∃ e e' f, (ran .mainPowerOn (run d)).device = e ∧ (ran .mainPowerOn (run d')).device = e'
      ∧ (ran .mainPowerOn (run c)).device = f ∧ (run d).restartsBy (run d) .mainPowerOn ∧ d.canonical ∧ d.queuesInStep
      ∧ (d.losesSlot e 1 ∧ ¬ d.losesSlot e 0 ∧ ¬ d'.losesSlot e' 1)
      ∧ (joins.configured 0 = false ∧ e.configured 0 = true) ∧ (d.configured 0 = true ∧ (d.printer 0).retired = false)
      ∧ d.wallValid = false ∧ (rolled.nextRollover = some 20000 ∧ passed rolled.wall 20000 = true)
      ∧ (2 ∈ d'.queue 1 ∧ (d'.printer 1).inService = false)
      ∧ ((e.settings 0).channels.get .c = (d.settings 0).channels.get .c
        ∧ (f.settings 0).channels.get .c ≠ (c.settings 0).channels.get .c)
      ∧ (∃ k, d.callout 3 = some k ∧ k.printer = 1 ∧ k.phase = .opened 900 ∧ passed d.uptime 900 = true)
      ∧ (∃ k, d'.callout 3 = some k ∧ k.deadline = some 1001 ∧ passed d'.uptime 1001 = false)
      ∧ (∃ k, c.callout 3 = some k ∧ k.phase = .attended 2)
      ∧ ((e.kindSettings 5).configured = true ∧ (f.kindSettings 5).configured = false ∧ 15 < 16)
      ∧ (∃ o, d.order 1 = some o ∧ o.kind = 5 ∧ 1 < 64 ∧ o.phase = .placed ⟨500, none, 900, false⟩) := by
  intro opened d d' fewer c joins rolled
  obtain ⟨e, he⟩ : ∃ e, (ran .mainPowerOn (run d)).device = e := ⟨_, rfl⟩
  obtain ⟨e', he'⟩ : ∃ e, (ran .mainPowerOn (run d')).device = e := ⟨_, rfl⟩
  obtain ⟨f, hf⟩ : ∃ e, (ran .mainPowerOn (run c)).device = e := ⟨_, rfl⟩
  have we : e.work = only 0 := (loads he rfl rfl rfl).1
  have we' : e'.work = only 1 := (loads he' rfl rfl rfl).1
  have wf : f.work = fewer := (loads hf rfl rfl rfl).1
  refine ⟨e, e', f, he, he', hf, ?_⟩
  refine ⟨.inl ⟨rfl, rfl, rfl, rfl, rfl⟩, asleep_canonical _ _ _ _ _ only_canonical.1 (by unfold Device.tablesCanonical; decide),
    asleep_inStep _ _ _ _ _, ?_, ?_, by decide, rfl, by decide, by decide, ?_, ⟨_, rfl, rfl, rfl, by decide⟩,
    ⟨_, rfl, rfl, by decide⟩, ⟨_, rfl, rfl⟩, ?_, ⟨_, rfl, rfl, by decide, rfl⟩⟩
  · unfold Device.losesSlot Device.configured Device.settings
    rw [we, we']
    decide
  · unfold Device.configured Device.settings
    rw [we]
    decide
  · unfold Device.settings
    rw [we, wf]
    decide
  · unfold Device.kindSettings
    rw [we, wf]
    decide

theorem test_ReadsReplyWithTheirRecords :
    (run office).device.running = true ∧ 127 < 128 ∧ (office.settings 127).enabled = false
      ∧ (office.settings 0).enabled = true ∧ 4095 < 4096 ∧ 63 < 64 ∧ 3 < 4 := by decide

theorem test_FurtherReadsReplyWithTheirRecords :
    let d : Device := { office with callouts := ⟨[(3, some (calloutAt (.opened 900)))]⟩ }
    (run d).device.running = true ∧ 127 < 128 ∧ d.callouts.wf none = true ∧ d.callout 3 = some (calloutAt (.opened 900))
      ∧ (∀ m k, d.callout m = some k → k.printer = 0 → m = 3) ∧ (∀ n k, d.callout n = some k → k.printer ≠ 1)
      ∧ office.holds 0 (held 10 0 10 10 500) ∧ 63 ≤ 63 ∧ 4095 < 4096 ∧ (∀ n ∈ office.queue 1, office.ticket n ≠ none)
      ∧ (3 < 4 ∧ 1 ≤ 1 ∧ 32 ≤ 32) ∧ office.configured 0 = true ∧ office.work.printers.wf {} = true
      ∧ (∀ p, office.configured p = true → p < 128) ∧ 15 < 16 :=
  ⟨rfl, by decide, by decide, rfl, every (by decide), every (by decide), office_holds_ticket _ _ rfl (every (by decide)),
    by decide, by decide, by decide, by decide, by decide, by decide,
    office_slots, by decide⟩

/-- The attention sequence of spec 10: ACK ATTENTION (JOB) with seen value 501 clears GRANTS_WAITING alone, with 502 the
timeout too, and ATTN is released. -/
theorem test_worked_acknowledge :
    let d : Device := { office with grants := [], attention := ⟨⟨[(10 * 128, some 501), (11 * 128, some 502)]⟩, 502⟩ }
    let ack := fun (seen : Nat) (s : State) => ran .ackAttention (s.offer 0x03 7 ([1, 2, 3, 0] ++ optBytes 4 (some seen)))
    let one := ack 501 (run d)
    let two := ack 502 one
    one.device.stamp .grantsWaiting 0 = none ∧ one.device.stamp .jobTimeout 0 = some 502 ∧ one.device.attnLow = true
      ∧ one.link.reply.map (fun f => f.body.take 1) = some [0x0B] ∧ two.device.stamp .jobTimeout 0 = none
      ∧ two.device.attnLow = false ∧ two.link.reply.map (·.body) = some [0x00] := by decide +kernel

/-- The lock-out sequence of spec 04: the third wrong PIN locks the account for 900 s. -/
theorem test_worked_lockout :
    let d : Device := { (inSession (.pinWait 2 20060)).device with
      uptime := 20030, accounts := ⟨[(2, { failures := 2 })]⟩
      work := { officeWork with guard := ⟨false, 3, 15⟩ } }
    let e := (ran (.pin 0 true 9) (run d)).device
    (e.accountTotals 2).failures = 3 ∧ (e.accountTotals 2).lockedUntil = some 20930 ∧ e.usable 2 = false
      ∧ (e.terminal 0).session = .none ∧ e.causeHolds .accountLocked 0 = true := by decide +kernel

/-- Poll 1 and 2 of the join sequence of spec 07, and the promotion at 30,100 of the morning of spec 06: a release at an
ONLINE printer with an empty queue prints at once. -/
theorem test_worked_join_and_promotion :
    let j := (ran (.joinRequest 0 7340112) (run (withTerminal0 {}))).device
    let d : Device := { listing with queues := ⟨[]⟩, grants := [], tickets := ⟨[(0, some (held 10 0 10 10 116400))]⟩ }
    let e := (ran (.release 0 true 1) (run { d with uptime := 30100 })).device
    (j.terminal 0).presence = .joining ∧ (j.terminal 0).joinedSerial = some 7340112
      ∧ e.queue 0 = [0] ∧ (e.ticket 0).map (·.phase) = some (.printing ⟨0, 35, 2, class2⟩ false 31300)
      ∧ e.grants = [⟨10, 0, 0⟩] ∧ (e.accountTotals 0).reserved = 35 := by decide +kernel

/-- The jam sequence of spec 02 at 5,000: the activation opens the window and holds printer 0 off. -/
theorem test_worked_jam :
    let r : Report := { aReport 0 255 with levels := ⟨255, 255, 255, 255, 255, 255⟩, codes := [0x1204, 0x0A10] }
    let e := (ran .printerReport ((run { office with uptime := 5000 }).offer 0x12 7 r.bytes)).device
    e.fault 0 .jam = ⟨true, false, some 5120, 1, some 5000, some 0x1204⟩ ∧ (e.printer 0).derived = .holdoff
      ∧ (e.fault 0 .other).active = true ∧ e.causeHolds .faultReport 0 = true := by decide +kernel

/-- The order sequence of spec 09 at 101,000 and 900,000: the reply of an approval, and the delivery that closes. -/
theorem test_worked_order :
    let a := ran .approveOrder ((run { office with uptime := 101000 }).offer 0x5A 7 [0, 40, 0, 0, 0])
    let p : Device := { office with
      orders := ⟨[(0, some ⟨40, 5, 12, 8, .partially ⟨500, none, 900, true⟩, 500, none⟩)]⟩, stock := ⟨[(5, { onHand := 9 })]⟩ }
    let c := (ran .receiveDelivery ((run p).offer 0x5D 7 [0, 40, 0, 6, 0])).device
    (a.device.order 0).map (·.phase) = some (.placed ⟨101000, none, 878600, false⟩)
      ∧ a.link.reply.map (·.body) = some (0x00 :: (toBytes 4 41027 ++ [12] ++ toBytes 4 777600))
      ∧ c.order 0 = none ∧ (c.kind 5).onHand = 15 := by decide +kernel

/-- The interrupted save of spec 11: power lost while SAVING ends the save and leaves the image invalid. -/
theorem test_worked_interrupted_save :
    let e := (ran .mainPowerLoss (run busy.device)).device
    e.saving = false ∧ e.store.checksumGood = false ∧ e.running = false ∧ e.tickets = busy.device.tickets := by decide

end Sys2Proof.Tests
end

section
/-! SUPPORT. ADJUST USAGE and CLOSE PERIOD (R76, R77): signed fields read back, a change of every record of a
table, and the statement that these two requests move the used totals. -/

namespace Sys2Proof.Machine

section Tables

variable {α : Type} {d : α}

theorem Table.find_of_lt_all {l : List (Nat × α)} {n : Nat} (h : ∀ e ∈ l, n < e.1) : Table.find d l n = d :=
  Classical.byContradiction fun listed => Nat.lt_irrefl n (h _ (Table.mem_of_find d listed))

theorem Table.find_map {f : α → α} (hf : f d = d) (l : List (Nat × α)) (n : Nat) :
    Table.find d (l.map fun e => (e.1, f e.2)) n = f (Table.find d l n) := by
  induction l with
  | nil => exact hf.symm
  | cons e rest ih => by_cases hk : e.1 = n <;> simp [Table.find, hk, ih]

/-- In a list of rising numbers the default entries can be left out. -/
theorem Table.find_filter_ne [DecidableEq α] {l : List (Nat × α)} (rising : l.Pairwise fun a b => a.1 < b.1) (n : Nat) :
    Table.find d (l.filter fun e => e.2 ≠ d) n = Table.find d l n := by
  induction l with
  | nil => rfl
  | cons e rest ih =>
    obtain ⟨k, v⟩ := e
    obtain ⟨above, rest_rising⟩ := List.pairwise_cons.1 rising
    have tail := ih rest_rising
    by_cases hv : v = d
    · rw [List.filter_cons_of_neg (by simpa using hv), tail]
      by_cases hk : k = n
      · subst hk
        simp [Table.find, hv, Table.find_of_lt_all above]
      · simp [Table.find, hk]
    · rw [List.filter_cons_of_pos (by simpa using hv), Table.find, Table.find, tail]

/-- A record of a table after a change of every record, for a change that keeps the default. -/
theorem Table.get_mapAll [DecidableEq α] {f : α → α} (hf : f d = d) {t : Table α} (ht : t.wf d = true) (n : Nat) :
    Table.get d (t.mapAll d f) n = f (Table.get d t n) := by
  obtain ⟨rising, -⟩ := (Table.wf_iff d t).1 ht
  have rising' : (t.entries.map fun e => (e.1, f e.2)).Pairwise fun a b => a.1 < b.1 := rising.map _ fun _ _ h => h
  exact (Table.find_filter_ne rising' n).trans (Table.find_map hf t.entries n)

end Tables

/-- A signed number that fits its two's complement field is read back. -/
theorem signedOf_emod {w : Nat} {i : Int} (lo : -(256 ^ w : Int) ≤ 2 * i) (hi : 2 * i < (256 ^ w : Int)) :
    signedOf w (i % (256 : Int) ^ w).toNat = i := by
  have cast : ((256 ^ w : Nat) : Int) = (256 : Int) ^ w := Int.natCast_pow 256 w
  unfold signedOf
  rw [← cast] at lo hi ⊢
  generalize 256 ^ w = m at lo hi ⊢
  by_cases neg : i < 0
  · have wrapped : i % (m : Int) = i + m := by
      rw [← Int.add_emod_right, Int.emod_eq_of_lt (by omega) (by omega)]
    rw [wrapped, if_neg (by omega)]
    omega
  · rw [Int.emod_eq_of_lt (Int.not_lt.1 neg) (by omega), if_pos (by omega)]
    omega

/-- A 32-bit signed field behind a 16-bit number is read back with it. -/
theorem fields_toBytes_toBytesInt {n : Nat} (hn : n < 65536) (i : Int) :
    fields [2, 4] (toBytes 2 n ++ toBytesInt 4 i) = some [n, (i % (256 : Int) ^ 4).toNat] := by
  have fits : (i % (256 : Int) ^ 4).toNat < 256 ^ 4 := by omega
  rw [fields_toBytes_append (by omega), toBytesInt, fields_toBytes fits]
  rfl

/-- ADJUST USAGE for a number and a delta that fit their fields (R77). -/
theorem adjustUsage_toBytes {n : Nat} (hn : n < 65536) {delta : Int} (lo : -2147483648 ≤ delta)
    (hi : delta ≤ 2147483647) (d : Device) :
    adjustUsage (toBytes 2 n ++ toBytesInt 4 delta) d
      = if 4096 ≤ n then refuse .badField d
        else answer (d.adjustUsage n delta)
          (toBytes 4 (adjustUsed (d.accountTotals n).used delta)
            ++ toBytes 4 (adjustUsed (d.tenantTotals (d.accountSettings n).tenant).used delta)) := by
  have read : signedOf 4 (delta % (256 : Int) ^ 4).toNat = delta := signedOf_emod (by omega) (by omega)
  unfold adjustUsage withFields
  rw [fields_toBytes_toBytesInt hn]
  simp only [List.headD_cons, List.getD_cons_succ, List.getD_cons_zero, read, Config.accounts]
  simp [Device.adjustUsage]

theorem Device.closePeriod_tenantTotals {d : Device} (h : d.tenants.wf {} = true) (n : Nat) :
    d.closePeriod.tenantTotals n = { d.tenantTotals n with used := 0 } := Table.get_mapAll rfl h n

theorem Device.closePeriod_accountTotals {d : Device} (h : d.accounts.wf {} = true) (n : Nat) :
    d.closePeriod.accountTotals n = { d.accountTotals n with used := 0 } := Table.get_mapAll rfl h n

/-- CLOSE PERIOD for a period number: taken when it is the current one, and refused with that one when not (R76). -/
theorem closePeriod_toBytes (number : BitVec 16) (d : Device) :
    closePeriod (toBytes 2 number.toNat) d
      = if number = d.period then
          answer d.closePeriod (toBytes 2 (d.period + 1).toNat
            ++ (List.range 64).flatMap fun n => toBytes 4 (d.tenantTotals n).used)
        else (d, Status.state.byte :: toBytes 2 d.period.toNat) := by
  unfold closePeriod withFields
  rw [fields_toBytes number.isLt]
  simp only [List.headD_cons, BitVec.toNat_inj, Config.tenants]

theorem exec_adjustUsage_offer {s : State} (hr : s.device.running = true) (tag : Byte) (body : List Byte) :
    exec .adjustUsage (s.offer 0x2E tag body)
      = .next (s.reply 0xAE tag (adjustUsage body s.device).2 (adjustUsage body s.device).1) :=
  congrArg Host.Outcome.next (serve_offer s hr 0x2E adjustUsage tag body)

theorem exec_closePeriod_offer {s : State} (hr : s.device.running = true) (tag : Byte) (body : List Byte) :
    exec .closePeriod (s.offer 0x2F tag body)
      = .next (s.reply 0xAF tag (closePeriod body s.device).2 (closePeriod body s.device).1) :=
  congrArg Host.Outcome.next (serve_offer s hr 0x2F closePeriod tag body)

/-- Settles O31: each request's body is read back, and its handler is the model's own equation. -/
theorem usedTotalsMoveByAdjustmentAndPeriodClose : Obligations.UsedTotalsMoveByAdjustmentAndPeriodClose := by
  unfold Obligations.UsedTotalsMoveByAdjustmentAndPeriodClose
  refine ⟨fun s tag n delta running lo hi => ⟨fun above fits => ?_, fun below => ?_⟩,
    fun s tag number running tenants accounts => ⟨?_, fun other => ?_⟩⟩
  · rw [exec_adjustUsage_offer running, adjustUsage_toBytes fits lo hi, if_pos above]
    rfl
  · rw [exec_adjustUsage_offer running, adjustUsage_toBytes (by omega) lo hi, if_neg (by omega)]
    rfl
  · rintro rfl
    refine ⟨s.device.closePeriod.tenants, s.device.closePeriod.accounts, ?_,
      Device.closePeriod_tenantTotals tenants, Device.closePeriod_accountTotals accounts⟩
    rw [exec_closePeriod_offer running, closePeriod_toBytes, if_pos rfl]
    rfl
  · rw [exec_closePeriod_offer running, closePeriod_toBytes, if_neg other]
    rfl

end Sys2Proof.Machine
end

section
/-! SUPPORT. An accepted PIN (R74, R136): the outcomes of the PIN check, the record each leaves at the terminal, the
hand-off that ends an account's sessions (R64), and the statement assembled from them. -/

namespace Sys2Proof.Machine

variable {d : Device} {i n : Nat} {t : Terminal} {digest : BitVec 32}

/-! ## The PIN check (R74) -/

theorem Device.checkPin_of_not_usable (hu : d.usable n = false) : d.checkPin n digest = (d, .notUsable) := by
  simp [Device.checkPin, hu]

theorem Device.checkPin_of_not_required (hu : d.usable n = true) (hr : (d.accountSettings n).pinRequired = false) :
    d.checkPin n digest = (d, .pass) := by
  simp [Device.checkPin, hu, hr]

section Compared

variable (hu : d.usable n = true) (hr : (d.accountSettings n).pinRequired = true)
include hu hr

theorem Device.checkPin_of_no_digest (hd : (d.credentials n).digest = none) :
    d.checkPin n digest = (d, .pinNotSet) := by
  simp [Device.checkPin, hu, hr, hd]

theorem Device.checkPin_of_match (hd : (d.credentials n).digest = some digest) :
    d.checkPin n digest = (d.modAccount n fun a => { a with failures := 0 }, .pass) := by
  simp [Device.checkPin, hu, hr, hd]

theorem Device.checkPin_of_mismatch {stored : BitVec 32} (hd : (d.credentials n).digest = some stored)
    (hne : stored ≠ digest) : d.checkPin n digest = d.pinFailure n := by
  simp [Device.checkPin, hu, hr, hd, hne]

end Compared

theorem Device.pinFailure_below (h : (d.accountTotals n).failures + 1 < d.work.guard.failureLimit) :
    d.pinFailure n = (d.modAccount n fun a => { a with failures := min 15 ((d.accountTotals n).failures + 1) },
      .mismatch (d.work.guard.failureLimit - ((d.accountTotals n).failures + 1))) := by
  simp [Device.pinFailure, h]

/-- The account locked by its last wrong PIN, before the hand-off to the terminals. -/
def Device.pinLocked (d : Device) (n : Nat) : Device :=
  (d.modAccount n fun a => { a with
    failures := min 15 ((d.accountTotals n).failures + 1)
    lockedUntil := some (after d.uptime (d.work.guard.lockoutMinutes * 60)) }).raise .accountLocked

theorem Device.pinFailure_at_limit (h : d.work.guard.failureLimit ≤ (d.accountTotals n).failures + 1) :
    d.pinFailure n = (d.pinLocked n, .lockedOut) := by
  simp [Device.pinFailure, Device.pinLocked, Nat.not_lt.2 h]

theorem Device.pinLocked_accounts (d : Device) (n : Nat) :
    (d.pinLocked n).accounts = d.accounts.put {} n { d.accountTotals n with
      failures := min 15 ((d.accountTotals n).failures + 1)
      lockedUntil := some (after d.uptime (d.work.guard.lockoutMinutes * 60)) } :=
  Device.raise_accounts ..

theorem Device.pinLocked_eq (d : Device) (n : Nat) :
    d.pinLocked n = { d with accounts := (d.pinLocked n).accounts, attention := (d.pinLocked n).attention } := by
  rw [Device.pinLocked_accounts]
  exact Device.raise_with ..

/-- A raised flag is set, with its enable set (R178). -/
theorem Device.stamp_raise_same {f : Flag} {k : Nat} (h : d.enabled f = true) :
    (d.raise f k).stamp f k = some (d.attention.counter + 1) := by
  simp [Device.raise, h, Device.stamp]

theorem Device.pinLocked_stamp (h : d.enabled .accountLocked = true) :
    (d.pinLocked n).stamp .accountLocked 0 ≠ none := by
  have raised : (d.pinLocked n).stamp .accountLocked 0 = _ := Device.stamp_raise_same h
  rw [raised]
  exact Option.some_ne_none _

theorem Device.raise_withTerminal (f : Flag) (k : Nat) :
    (d.withTerminal i t).raise f k = (d.raise f k).withTerminal i t := by
  have same : (d.withTerminal i t).enabled f = d.enabled f := rfl
  unfold Device.raise
  rw [same]
  split <;> rfl

theorem Device.pinLocked_withTerminal : (d.withTerminal i t).pinLocked n = (d.pinLocked n).withTerminal i t := by
  unfold Device.pinLocked
  rw [← Device.raise_withTerminal]
  rfl

/-- The lasting cause of ACCOUNT_LOCKED, by account number (R179). -/
theorem Device.causeHolds_accountLocked (h : d.accounts.wf {} = true) :
    d.causeHolds .accountLocked 0 = true ↔ ∃ n, (d.accountTotals n).lockedUntil ≠ none := by
  obtain ⟨rising, -⟩ := (Table.wf_iff _ _).1 h
  simp only [Device.causeHolds, List.any_eq_true, Option.isSome_iff_ne_none]
  constructor
  · rintro ⟨⟨n, a⟩, listed, locked⟩
    exact ⟨n, by rwa [Device.accountTotals, Table.get, Table.find_of_mem _ rising listed]⟩
  · rintro ⟨n, locked⟩
    have differs : d.accountTotals n ≠ {} := fun same => locked (by rw [same])
    exact ⟨_, Table.mem_of_find _ differs, locked⟩

/-! ## The record an outcome leaves at the terminal (R136) -/

/-- The record with the session of an account's role just opened (R135, R136). -/
def Device.opened (d : Device) (i n : Nat) (idle : Time) (t : Terminal) : Terminal :=
  match (d.accountSettings n).role with
  | .user => d.listed i n idle 1 t
  | .tech => t.showing (d.serviceScreen i none) none (.serviceMenu n idle none)

theorem Device.withTerminal_openRole (hp : t.presence = .present) :
    (d.withTerminal i t).openRole i n (d.accountSettings n).role
      = d.withTerminal i (d.opened i n (d.idleFrom i) t) := by
  unfold Device.openRole Device.opened
  cases (d.accountSettings n).role with
  | user => exact Device.withTerminal_showListing hp n (d.idleFrom i) 1
  | tech =>
    simp only [Device.withTerminal_setSession]
    rw [Device.withTerminal_makeScreen (by simpa using hp)]
    rfl

/-- A listing shows of an account's totals only used and reserved. -/
theorem Device.listed_modAccount {f : AccountTotals → AccountTotals}
    (hf : ∀ a, (f a).used = a.used ∧ (f a).reserved = a.reserved) (account : Nat) (idle : Time) (page : Nat) :
    (d.modAccount n f).listed i account idle page t = d.listed i account idle page t := by
  have same : (d.modAccount n f).accountRemaining account = d.accountRemaining account := by
    by_cases h : account = n
    · subst h
      simp [Device.accountRemaining, hf]
    · simp [Device.accountRemaining, h]
  simp only [Device.listed, Device.listingPage, same]
  rfl

theorem Device.opened_modAccount {f : AccountTotals → AccountTotals}
    (hf : ∀ a, (f a).used = a.used ∧ (f a).reserved = a.reserved) (idle : Time) :
    (d.modAccount n f).opened i n idle t = d.opened i n idle t := by
  simp only [Device.opened, Device.listed_modAccount hf]
  rfl

/-! ## The hand-off that ends an account's sessions (R64) -/

variable {test : Nat → Bool} {reason : LockReason}

theorem Terminal.sessionOf_eq_false_iff :
    t.sessionOf (· = n) = false ↔ (t.presence = .present → t.session.account ≠ some n) := by
  cases h : t.session.account <;> simp [Terminal.sessionOf, h]

/-- What the hand-off does at one position. -/
def Device.endSessionAt (test : Nat → Bool) (reason : LockReason) (d : Device) (i : Nat) : Device :=
  if (d.terminal i).sessionOf test then
    d.endWith i (d.lockedScreen reason ((d.terminal i).session.account.getD 0)) (some .welcome)
  else d

theorem Device.endSessions_eq_foldl :
    d.endSessions test reason = (List.range 128).foldl (Device.endSessionAt test reason) d := rfl

/-- The hand-off at one position leaves the device, or a record there whose session has ended. -/
theorem Device.endSessionAt_cases (test : Nat → Bool) (reason : LockReason) (d : Device) (i : Nat) :
    (d.endSessionAt test reason i = d ∧ (d.terminal i).sessionOf test = false)
      ∨ (∃ t, d.endSessionAt test reason i = d.withTerminal i t ∧ t.session = .none
        ∧ (d.terminal i).sessionOf test = true) := by
  unfold Device.endSessionAt
  split
  · rename_i met
    have present : (d.terminal i).endSession.presence = .present := by
      simpa [Terminal.endSession] using (Bool.and_eq_true_iff.1 met).1
    have shown := Device.withTerminal_makeScreen (d := d) (i := i) present
    exact .inr ⟨_, shown _ _, rfl, met⟩
  · rename_i unmet
    exact .inl ⟨rfl, Bool.eq_false_iff.2 unmet⟩

/-- A hand-off along a list of positions writes records of terminals alone. -/
theorem Device.foldl_endSessionAt_eq (l : List Nat) (d : Device) :
    ∃ table, l.foldl (Device.endSessionAt test reason) d = { d with terminals := table } := by
  induction l generalizing d with
  | nil => exact ⟨d.terminals, rfl⟩
  | cons i l ih =>
    obtain ⟨table, rest⟩ := ih (d.endSessionAt test reason i)
    rw [List.foldl_cons, rest]
    obtain ⟨same, -⟩ | ⟨t, wrote, -⟩ := Device.endSessionAt_cases test reason d i
    · exact ⟨table, by rw [same]⟩
    · exact ⟨table, by rw [wrote]; rfl⟩

/-- A position without a session that meets the test keeps its record. -/
theorem Device.foldl_endSessionAt_terminal (l : List Nat) {d : Device} {j : Nat}
    (h : (d.terminal j).sessionOf test = false) :
    (l.foldl (Device.endSessionAt test reason) d).terminal j = d.terminal j := by
  induction l generalizing d with
  | nil => rfl
  | cons i l ih =>
    rw [List.foldl_cons]
    obtain ⟨same, -⟩ | ⟨t, wrote, -, met⟩ := Device.endSessionAt_cases test reason d i
    · rw [same, ih h]
    · have other : j ≠ i := by
        rintro rfl
        exact absurd met (by simp [h])
      have kept : (d.withTerminal i t).terminal j = d.terminal j := Device.withTerminal_terminal_ne d i t j other
      rw [wrote, ih (by rwa [kept]), kept]

theorem Device.foldl_endSessionAt_sessionOf {l : List Nat} {j : Nat} (hj : j ∈ l) (d : Device) :
    ((l.foldl (Device.endSessionAt test reason) d).terminal j).sessionOf test = false := by
  induction l generalizing d with
  | nil => simp at hj
  | cons i l ih =>
    rw [List.foldl_cons]
    rcases List.mem_cons.1 hj with rfl | later
    · have ended : ((d.endSessionAt test reason j).terminal j).sessionOf test = false := by
        obtain ⟨same, unmet⟩ | ⟨t, wrote, closed, -⟩ := Device.endSessionAt_cases test reason d j
        · rwa [same]
        · rw [wrote, Device.withTerminal_terminal]
          simp [Terminal.sessionOf, closed, Session.account]
      rwa [Device.foldl_endSessionAt_terminal l ended]
    · exact ih later _

/-! ## An accepted PIN (R136) -/

/-- A PIN in PIN_WAIT takes the outcome of the PIN check. -/
theorem Device.takePin_of_pinWait {e : Device} {o : PinOutcome} {x : Time} (hs : t.session = .pinWait n x)
    (hc : (d.withTerminal i t).checkPin n digest = (e.withTerminal i t, o)) :
    (d.withTerminal i t).takePin i digest = (e.withTerminal i t).takePinOutcome i n o := by
  simp [Device.takePin, hs, hc]

theorem Device.takePin_of_not_pinWait (h : ∀ n x, (d.terminal i).session ≠ .pinWait n x) :
    d.takePin i digest = d := by
  unfold Device.takePin
  split
  · exact absurd ‹_› (h _ _)
  all_goals rfl

theorem Device.lockMinutes_eq (d : Device) (n : Nat) :
    d.lockMinutes n = (d.accountTotals n).lockedUntil.map fun x => (secondsLeft d.uptime x + 59) / 60 := rfl

/-- The device after the PIN that locks its account. -/
def Device.pinLockedOut (d : Device) (i n : Nat) (t : Terminal) : Device :=
  ((d.pinLocked n).withTerminal i
    (t.showing ((d.pinLocked n).lockedScreen .lockedOut n) (some .welcome) .none)).endSessions (· = n) .lockedOut

theorem Device.withTerminal_lockedOut (hp : t.presence = .present) :
    ((d.pinLocked n).withTerminal i t).takePinOutcome i n .lockedOut = d.pinLockedOut i n t := by
  have ended := Device.withTerminal_endWith (d := d.pinLocked n) (i := i) hp
  simp only [Device.takePinOutcome, ended]
  rfl

theorem Device.pinLockedOut_eq (d : Device) (i n : Nat) (t : Terminal) :
    ∃ table, d.pinLockedOut i n t = { d.pinLocked n with terminals := table } := by
  obtain ⟨table, wrote⟩ := Device.foldl_endSessionAt_eq (test := (· = n)) (reason := .lockedOut) (List.range 128)
    ((d.pinLocked n).withTerminal i (t.showing ((d.pinLocked n).lockedScreen .lockedOut n) (some .welcome) .none))
  exact ⟨table, by rw [Device.pinLockedOut, Device.endSessions_eq_foldl, wrote]; rfl⟩

theorem Device.pinLockedOut_accounts (d : Device) (i n : Nat) (t : Terminal) :
    (d.pinLockedOut i n t).accounts = (d.pinLocked n).accounts := by
  obtain ⟨table, wrote⟩ := d.pinLockedOut_eq i n t
  rw [wrote]

theorem Device.pinLockedOut_frame (d : Device) (i n : Nat) (t : Terminal) :
    d.pinLockedOut i n t = { d with
      accounts := (d.pinLockedOut i n t).accounts
      attention := (d.pinLockedOut i n t).attention
      terminals := (d.pinLockedOut i n t).terminals } := by
  obtain ⟨table, wrote⟩ := d.pinLockedOut_eq i n t
  rw [wrote, Device.pinLocked_eq]

theorem Device.pinLocked_lockedUntil (d : Device) (n : Nat) :
    ((d.pinLocked n).accountTotals n).lockedUntil
      = some (after d.uptime (d.work.guard.lockoutMinutes * 60)) := by
  rw [Device.accountTotals, Device.pinLocked_accounts, Table.get_put_same]

theorem Device.pinLockedOut_usable (d : Device) (i n : Nat) (t : Terminal) : (d.pinLockedOut i n t).usable n = false := by
  have locked := d.pinLocked_lockedUntil n
  unfold Device.accountTotals at locked
  simp [Device.usable, Device.accountTotals, Device.pinLockedOut_accounts, locked]

theorem Device.pinLockedOut_stamp (h : d.enabled .accountLocked = true) :
    (d.pinLockedOut i n t).stamp .accountLocked 0 ≠ none := by
  obtain ⟨table, wrote⟩ := d.pinLockedOut_eq i n t
  rw [wrote]
  exact Device.pinLocked_stamp h

/-- The terminal of the PIN keeps its LOCKED screen: its session has ended before the hand-off. -/
theorem Device.pinLockedOut_terminal_same (d : Device) (i n : Nat) (t : Terminal) :
    (d.pinLockedOut i n t).terminal i
      = t.showing (.locked .lockedOut (some ((secondsLeft d.uptime
          (after d.uptime (d.work.guard.lockoutMinutes * 60)) + 59) / 60))) (some .welcome) .none := by
  unfold Device.pinLockedOut
  rw [Device.endSessions_eq_foldl, Device.foldl_endSessionAt_terminal]
  · rw [Device.withTerminal_terminal, Device.lockedScreen, Device.lockMinutes_eq, Device.pinLocked_lockedUntil]
    simp [Device.pinLocked]
  · rw [Device.withTerminal_terminal, Terminal.sessionOf_eq_false_iff]
    exact fun _ => nofun

theorem Device.pinLockedOut_terminal_ne {j : Nat} (hj : j ≠ i) (h : (d.terminal j).session.account ≠ some n) :
    (d.pinLockedOut i n t).terminal j = d.terminal j := by
  have before : ((d.pinLocked n).withTerminal i
      (t.showing ((d.pinLocked n).lockedScreen .lockedOut n) (some .welcome) .none)).terminal j = d.terminal j := by
    rw [Device.withTerminal_terminal_ne _ _ _ _ hj, Device.pinLocked, Device.raise_terminal]
    rfl
  unfold Device.pinLockedOut
  rw [Device.endSessions_eq_foldl, Device.foldl_endSessionAt_terminal, before]
  rw [before, Terminal.sessionOf_eq_false_iff]
  exact fun _ => h

theorem Device.pinLockedOut_session {j : Nat} (hj : j < 128)
    (hp : ((d.pinLockedOut i n t).terminal j).presence = .present) :
    ((d.pinLockedOut i n t).terminal j).session.account ≠ some n := by
  have ended : ((d.pinLockedOut i n t).terminal j).sessionOf (· = n) = false := by
    rw [Device.pinLockedOut, Device.endSessions_eq_foldl]
    exact Device.foldl_endSessionAt_sessionOf (List.mem_range.2 hj) _
  exact Terminal.sessionOf_eq_false_iff.1 ended hp

section InPinWait

variable {x : Time} (hp : t.presence = .present) (hs : t.session = .pinWait n x)
include hp hs

theorem Device.takePin_not_usable (hu : d.usable n = false) :
    (d.withTerminal i t).takePin i digest
      = d.withTerminal i (t.showing (.locked .notUsable ((d.accountTotals n).lockedUntil.map fun x =>
          (secondsLeft d.uptime x + 59) / 60)) (some .welcome) .none) :=
  (Device.takePin_of_pinWait hs (Device.checkPin_of_not_usable hu)).trans (Device.withTerminal_endWith hp _ _)

theorem Device.takePin_pass {e : Device}
    (hc : (d.withTerminal i t).checkPin n digest = (e.withTerminal i t, .pass)) :
    (d.withTerminal i t).takePin i digest = e.withTerminal i (e.opened i n (e.idleFrom i) t) := by
  rw [Device.takePin_of_pinWait hs hc, ← Device.withTerminal_openRole hp]
  rfl

theorem Device.takePin_not_required (hu : d.usable n = true) (hr : (d.accountSettings n).pinRequired = false) :
    (d.withTerminal i t).takePin i digest = d.withTerminal i (d.opened i n (d.idleFrom i) t) :=
  Device.takePin_pass hp hs (Device.checkPin_of_not_required hu hr)

section Compared

variable (hu : d.usable n = true) (hr : (d.accountSettings n).pinRequired = true)
include hu hr

theorem Device.takePin_no_digest (hd : (d.credentials n).digest = none) :
    (d.withTerminal i t).takePin i digest
      = d.withTerminal i (t.showing (.result (some .pinNotSet) .nothing) (some .welcome) .none) :=
  (Device.takePin_of_pinWait hs (Device.checkPin_of_no_digest hu hr hd)).trans (Device.withTerminal_endWith hp _ _)

theorem Device.takePin_match (hd : (d.credentials n).digest = some digest) :
    (d.withTerminal i t).takePin i digest
      = (d.modAccount n fun a => { a with failures := 0 }).withTerminal i (d.opened i n (d.idleFrom i) t) := by
  have check : (d.withTerminal i t).checkPin n digest
      = ((d.modAccount n fun a => { a with failures := 0 }).withTerminal i t, .pass) :=
    Device.checkPin_of_match hu hr hd
  rw [Device.takePin_pass hp hs check, Device.opened_modAccount]
  · rfl
  · exact fun _ => ⟨rfl, rfl⟩

variable {stored : BitVec 32} (hd : (d.credentials n).digest = some stored) (hne : stored ≠ digest)
include hd hne

theorem Device.takePin_mismatch (hl : (d.accountTotals n).failures + 1 < d.work.guard.failureLimit) :
    (d.withTerminal i t).takePin i digest
      = (d.modAccount n fun a => { a with failures := min 15 ((d.accountTotals n).failures + 1) }).withTerminal i
        (t.showing (.pinEntry (some (d.work.guard.failureLimit - ((d.accountTotals n).failures + 1)))) none
          t.session) := by
  have check : (d.withTerminal i t).checkPin n digest
      = ((d.modAccount n fun a => { a with failures := min 15 ((d.accountTotals n).failures + 1) }).withTerminal i t,
        .mismatch (d.work.guard.failureLimit - ((d.accountTotals n).failures + 1))) :=
    (Device.checkPin_of_mismatch (d := d.withTerminal i t) hu hr hd hne).trans (Device.pinFailure_below hl)
  rw [Device.takePin_of_pinWait hs check, ← Device.withTerminal_makeScreen hp]
  rfl

theorem Device.takePin_lockedOut (hl : d.work.guard.failureLimit ≤ (d.accountTotals n).failures + 1) :
    (d.withTerminal i t).takePin i digest = d.pinLockedOut i n t := by
  have check := (Device.checkPin_of_mismatch (d := d.withTerminal i t) hu hr hd hne).trans
    (Device.pinFailure_at_limit hl)
  rw [Device.pinLocked_withTerminal] at check
  rw [Device.takePin_of_pinWait hs check, Device.withTerminal_lockedOut hp]

end Compared
end InPinWait

/-- Acceptance restarts the idle deadline of a PIN_WAIT and makes none of another session (R134). -/
theorem Terminal.accepted_session_pinWait {now idle x : Time} {toggle : Bool} :
    (t.accepted now idle toggle).session = .pinWait n x ↔ x = idle ∧ ∃ y, t.session = .pinWait n y := by
  cases h : t.session <;> simp [Terminal.accepted, h, eq_comm, and_comm]

/-- An accepted PIN runs on the accepted record, and the line's cursor moves. -/
theorem exec_pin_accepted {s : State} {line a : Nat} {toggle : Bool} (running : s.device.running = true)
    (polled : s.device.awaits line a i) (present : (s.device.terminal i).presence = .present)
    (fresh : (s.device.terminal i).ack ≠ toggle) (digest : BitVec 32) :
    exec (.pin line toggle digest) s = .next { s with
      device := ((s.device.withTerminal i ((s.device.terminal i).accepted s.device.uptime
        (s.device.idleAt line) toggle)).takePin i digest).advance line a } := by
  have answered := polled.accepted present fresh (.pin digest)
  show Host.Outcome.next (whenRunning _ s) = _
  rw [whenRunning, if_pos running, answered]
  rfl

/-- Settles O42: the cases of the PIN check, each with the device its outcome leaves. -/
theorem pinOpensOrLocks : Obligations.PinOpensOrLocks := by
  unfold Obligations.PinOpensOrLocks
  intro s line a i toggle digest running polled _ present fresh d idle t becomes opened
  have runs {e : Device} (taken : (d.withTerminal i t).takePin i digest = e) :
      exec (.pin line toggle digest) s = .next { s with device := e.advance line a } :=
    taken ▸ exec_pin_accepted running polled present fresh digest
  have idle_eq : d.idleFrom i = idle := by
    rw [Device.idleFrom, polled.line_eq]
    rfl
  have opens {e : Device} {n : Nat}
      (taken : (d.withTerminal i t).takePin i digest = e.withTerminal i (d.opened i n (d.idleFrom i) t)) :
      opened e n := by
    have run := runs taken
    rw [idle_eq, Device.opened] at run
    cases role : (d.accountSettings n).role with
    | user => simpa only [opened, role] using run
    | tech => simpa only [opened, role] using run
  refine ⟨Device.causeHolds_accountLocked, fun other => ?_, fun n x waiting => ?_⟩
  · refine runs (Device.takePin_of_not_pinWait fun n x inPinWait => ?_)
    rw [Device.withTerminal_terminal] at inPinWait
    obtain ⟨-, y, waiting⟩ := Terminal.accepted_session_pinWait.1 inPinWait
    exact other n y waiting
  · have session : t.session = .pinWait n idle := Terminal.accepted_session_pinWait.2 ⟨rfl, x, waiting⟩
    refine ⟨fun unusable => runs (Device.takePin_not_usable present session unusable),
      fun usable free => opens (Device.takePin_not_required present session usable free),
      fun usable asked empty => runs (Device.takePin_no_digest present session usable asked empty),
      fun usable asked stored => opens (Device.takePin_match present session usable asked stored),
      fun g usable asked stored differs => ⟨fun below =>
        runs (Device.takePin_mismatch present session usable asked stored differs below), fun reached => ?_⟩⟩
    exact ⟨d.pinLockedOut i n t,
      runs (Device.takePin_lockedOut present session usable asked stored differs reached),
      (d.pinLockedOut_accounts i n t).trans (d.pinLocked_accounts n), d.pinLockedOut_usable i n t,
      d.pinLockedOut_frame i n t, Device.pinLockedOut_stamp, d.pinLockedOut_terminal_same i n t,
      fun j => Device.pinLockedOut_session, fun j => Device.pinLockedOut_terminal_ne⟩

end Sys2Proof.Machine
end

section
/-! SUPPORT. RELEASE n in LISTING (R107, R108, R137): the conditions of the eight checks as the rules say them, the
outcome each one gives, the device a release leaves, and the statement assembled from them. -/

namespace Sys2Proof.Machine

variable {d : Device} {i q acct : Nat} {t : Terminal} {k : Ticket} {r : PageRef}

/-! ## The conditions of the checks (R12, R88, R105, R107) -/

theorem Device.releasable_iff {colour : Bool} :
    d.releasable q colour = true
      ↔ (d.printer q).derived = .online ∨ (d.printer q).derived = .degradedMono ∧ colour = false := by
  unfold Device.releasable
  cases (d.printer q).derived <;> simp

theorem Device.eligible_iff :
    d.eligible acct q k = true ↔ k.owner = acct ∧ k.phase = .held
      ∧ ((∃ p, k.target = .printer p ∧ (p = q ∨ d.configured p = true ∧ (d.settings p).group = (d.settings q).group))
        ∨ k.target = .group (d.settings q).group) := by
  unfold Device.eligible
  cases k.target <;> simp [and_assoc]

theorem Device.atOther_iff :
    d.atOther q k = true ↔ ∃ p, k.target = .printer p ∧ p ≠ q ∧ ((d.printer p).derived = .online
      ∨ (d.printer p).derived = .degradedMono ∧ k.colour = 0) := by
  unfold Device.atOther
  cases k.target <;> simp [Device.releasable_iff]

theorem Device.listedTicket_eq_some_iff :
    d.listedTicket acct q r = some k
      ↔ d.ticket r.ticket = some k ∧ k.jobId = r.jobId ∧ d.eligible acct q k = true := by
  simp [Device.listedTicket, Option.filter_eq_some_iff]

theorem Device.colourPermitted_iff :
    d.colourPermitted acct = true ↔ (d.accountSettings acct).colour = true
      ∧ (d.tenantSettings (d.accountSettings acct).tenant).colour = true := by
  simp [Device.colourPermitted]

/-- An estimate other than 0 is above what a finite budget leaves (R65, R88). -/
def exceeds (est allowance used reserved : Nat) : Prop :=
  est ≠ 0 ∧ allowance ≠ 4294967295 ∧ (allowance : Int) - used - reserved < est

theorem exceeds_iff_not_within {est allowance used reserved : Nat} (h : est ≠ 0) :
    exceeds est allowance used reserved ↔ within est (remainingOf allowance used reserved) = false := by
  by_cases infinite : allowance = 4294967295 <;> simp [exceeds, remainingOf, within, Config.unlimited, infinite, h]

theorem within_of_not_exceeds {est allowance used reserved : Nat} (hz : est ≠ 0)
    (h : ¬ exceeds est allowance used reserved) : within est (remainingOf allowance used reserved) = true :=
  Bool.of_not_eq_false (mt (exceeds_iff_not_within hz).2 h)

/-- The estimate exceeds the account's budget. -/
def Device.accountLacks (d : Device) (acct est : Nat) : Prop :=
  exceeds est (d.accountSettings acct).allowance (d.accountTotals acct).used (d.accountTotals acct).reserved

/-- The estimate exceeds the budget of a tenant. -/
def Device.tenantLacks (d : Device) (tenant est : Nat) : Prop :=
  exceeds est (d.tenantSettings tenant).allowance (d.tenantTotals tenant).used (d.tenantTotals tenant).reserved

section Verdict

variable {est : Nat}

theorem Device.verdict_quotaAccount (h : d.accountLacks acct est) : d.verdict acct est = .quotaAccount := by
  have short := (exceeds_iff_not_within h.1).1 h
  simp [Device.verdict, Device.accountRemaining, h.1, short]

theorem Device.verdict_quotaTenant (ha : ¬ d.accountLacks acct est)
    (h : d.tenantLacks (d.accountSettings acct).tenant est) : d.verdict acct est = .quotaTenant := by
  have enough : within est (d.accountRemaining acct) = true := within_of_not_exceeds h.1 ha
  have short := (exceeds_iff_not_within h.1).1 h
  simp [Device.verdict, Device.tenantRemaining, h.1, enough, short]

theorem Device.verdict_admitted (ha : ¬ d.accountLacks acct est)
    (h : ¬ d.tenantLacks (d.accountSettings acct).tenant est) : d.verdict acct est = .admitted := by
  by_cases hz : est = 0
  · simp [Device.verdict, hz]
  · have account : within est (d.accountRemaining acct) = true := within_of_not_exceeds hz ha
    have tenant : within est (d.tenantRemaining (d.accountSettings acct).tenant) = true := within_of_not_exceeds hz h
    simp [Device.verdict, account, tenant]

end Verdict

/-! ## The outcome of the checks (R107) -/

/-- The outcome of a release that only the charge unit's verdict decides. -/
def Verdict.outcome : Verdict → ReleaseOutcome
  | .quotaAccount => .quotaAccount
  | .quotaTenant => .quotaTenant
  | .admitted => .released

theorem Device.releaseCheck_notHere (h : d.atOther q k = true) : d.releaseCheck acct q k = .notHere := by
  simp [Device.releaseCheck, h]

section TargetFree

variable (free : d.atOther q k = false)
include free

theorem Device.releaseCheck_printerUnavailable (h : d.releasable q false = false) :
    d.releaseCheck acct q k = .printerUnavailable := by
  simp [Device.releaseCheck, free, h]

theorem Device.releaseCheck_colourUnavailable (mono : (d.printer q).derived = .degradedMono) (h : 0 < k.colour) :
    d.releaseCheck acct q k = .colourUnavailable := by
  have releasable : d.releasable q false = true := Device.releasable_iff.2 (.inr ⟨mono, rfl⟩)
  simp [Device.releaseCheck, free, releasable, mono, h]

theorem Device.releaseCheck_colourNotPermitted (online : (d.printer q).derived = .online) (h : 0 < k.colour)
    (hp : d.colourPermitted acct = false) : d.releaseCheck acct q k = .colourNotPermitted := by
  have releasable : d.releasable q false = true := Device.releasable_iff.2 (.inl online)
  simp [Device.releaseCheck, free, releasable, online, h, hp]

section Printable

variable (takes : (d.printer q).derived = .online ∨ (d.printer q).derived = .degradedMono ∧ k.colour = 0)
  (permitted : k.colour = 0 ∨ d.colourPermitted acct = true)
include takes permitted

/-- Past checks 2 to 5, the room in the queue and the verdict on the estimate decide. -/
theorem Device.releaseCheck_printable :
    d.releaseCheck acct q k = if 8 ≤ (d.queue q).length then .queueFull
      else (d.verdict acct (d.estimate k q)).outcome := by
  have releasable : d.releasable q false = true := Device.releasable_iff.2 (takes.imp_right fun mono => ⟨mono.1, rfl⟩)
  have colour : ¬ (0 < k.colour ∧ (d.printer q).derived = .degradedMono) := by
    rintro ⟨coloured, mono⟩
    rcases takes with online | ⟨-, plain⟩
    · simp [mono] at online
    · omega
  have allowed : ¬ (0 < k.colour ∧ d.colourPermitted acct = false) := by
    rintro ⟨coloured, refused⟩
    rcases permitted with plain | granted
    · omega
    · simp [granted] at refused
  cases h : d.verdict acct (d.estimate k q) <;>
    simp [Device.releaseCheck, free, releasable, colour, allowed, Config.queueRoom, h, Verdict.outcome]

end Printable
end TargetFree

/-! ## A release beside a terminal record (R108) -/

theorem Device.consider_withTerminal : (d.withTerminal i t).consider q = (d.consider q).withTerminal i t := by
  have head : (d.withTerminal i t).promotable q = d.promotable q := rfl
  unfold Device.consider
  rw [head]
  split
  · rfl
  · rename_i n ticket adm _
    have promotes : (d.withTerminal i t).promote q n ticket adm = (d.promote q n ticket adm).withTerminal i t := by
      unfold Device.promote
      rw [← Device.raise_withTerminal]
      rfl
    rw [promotes]
    have room : (d.withTerminal i t).grants = d.grants := rfl
    have list : (d.withTerminal i t).waiting = d.waiting := rfl
    rw [room, list]
    split
    · rfl
    · split <;> rfl

/-- An admission raises both reserved totals (R89). -/
theorem Device.reserve_eq (est : Nat) :
    d.reserve acct est = { d with
      accounts := d.accounts.put {} acct { d.accountTotals acct with
        reserved := (d.accountTotals acct).reserved + est }
      tenants := d.tenants.put {} (d.accountSettings acct).tenant {
        d.tenantTotals (d.accountSettings acct).tenant with
        reserved := (d.tenantTotals (d.accountSettings acct).tenant).reserved + est } } := rfl

theorem Device.releaseInto_eq (n : Nat) (h : k.owner = acct) :
    d.releaseInto q n k = ({ d with
      accounts := d.accounts.put {} acct { d.accountTotals acct with
        reserved := (d.accountTotals acct).reserved + d.estimate k q }
      tenants := d.tenants.put {} (d.accountSettings acct).tenant {
        d.tenantTotals (d.accountSettings acct).tenant with
        reserved := (d.tenantTotals (d.accountSettings acct).tenant).reserved + d.estimate k q }
      tickets := d.tickets.put none n (some { k with
        phase := .queued (d.admission q k), reprint := false, lastRefusal := none })
      queues := d.queues.put [] q (d.queue q ++ [n]) } : Device).consider q := by
  unfold Device.releaseInto
  rw [Device.reserve_eq, h]
  rfl

theorem Device.releaseInto_withTerminal (n : Nat) :
    (d.withTerminal i t).releaseInto q n k = (d.releaseInto q n k).withTerminal i t := by
  unfold Device.releaseInto
  rw [← Device.consider_withTerminal]
  rfl

/-! ## One reference (R107, R108) -/

theorem Device.releaseRef_gone (h : d.listedTicket acct q r = none) : d.releaseRef acct q r = (d, .ticketGone) := by
  simp [Device.releaseRef, h]

theorem Device.releaseRef_refused (h : d.listedTicket acct q r = some k) {o : ReleaseOutcome}
    (hc : d.releaseCheck acct q k = o) (ho : o ≠ .released) :
    d.releaseRef acct q r = (d.putTicket r.ticket (some { k with lastRefusal := some o }), o) := by
  cases o with
  | released => exact absurd rfl ho
  | _ => simp [Device.releaseRef, h, hc]

theorem Device.releaseRef_released (h : d.listedTicket acct q r = some k) (hc : d.releaseCheck acct q k = .released) :
    d.releaseRef acct q r = (d.releaseInto q r.ticket k, .released) := by
  simp [Device.releaseRef, h, hc]

/-- The release checks read no terminal, and what follows them leaves the terminals as they are. -/
theorem Device.releaseRef_withTerminal :
    (d.withTerminal i t).releaseRef acct q r
      = ((d.releaseRef acct q r).1.withTerminal i t, (d.releaseRef acct q r).2) := by
  have listed : (d.withTerminal i t).listedTicket acct q r = d.listedTicket acct q r := rfl
  cases h : d.listedTicket acct q r with
  | none => rw [Device.releaseRef_gone h, Device.releaseRef_gone (listed.trans h)]
  | some k =>
    have check : (d.withTerminal i t).releaseCheck acct q k = d.releaseCheck acct q k := rfl
    by_cases passed : d.releaseCheck acct q k = .released
    · rw [Device.releaseRef_released h passed, Device.releaseRef_released (listed.trans h) (check.trans passed),
        Device.releaseInto_withTerminal]
    · rw [Device.releaseRef_refused h rfl passed, Device.releaseRef_refused (listed.trans h) check passed]
      rfl

/-! ## The key RELEASE n (R137) -/

theorem refAt_of_pos {refs : List PageRef} {n : Nat} (h : 1 ≤ n) : refAt refs n = refs[n - 1]? :=
  if_neg (by omega)

/-- The record with the RESULT of a RELEASE n in LISTING, whose follow-up is the page shown (R132, R137). -/
def Terminal.releaseShown (t : Terminal) (o : ReleaseOutcome) (name : Option JobName) (page : Nat) : Terminal :=
  t.showing (.result (some (.release o)) (.job name)) (some (.jobList page)) t.session

section InListing

variable {idle : Time} {page n : Nat} {refs : List PageRef} (hp : t.presence = .present)
  (hs : t.session = .listing acct idle page refs) (low : 1 ≤ n) (high : n ≤ 4)
include hp hs low high

theorem Device.takeKey_release_no_ref (h : refs[n - 1]? = none) :
    (d.withTerminal i t).takeKey i (.release n) = d.withTerminal i (t.releaseShown .ticketGone none page) := by
  have key : (d.withTerminal i t).takeKey i (.release n)
      = (d.withTerminal i t).makeScreen i (.result (some (.release .ticketGone)) (.job none)) (some (.jobList page)) := by
    simp [Device.takeKey, hs, Device.keyInListing, low, high, Device.keyRelease, refAt_of_pos low, h]
  rw [key, Device.withTerminal_makeScreen hp]
  rfl

theorem Device.takeKey_release_ref (h : refs[n - 1]? = some r) {e : Device} {o : ReleaseOutcome}
    (ran : d.releaseRef acct (d.boundPrinter i) r = (e, o)) :
    (d.withTerminal i t).takeKey i (.release n)
      = e.withTerminal i (t.releaseShown o (some (d.refName r)) page) := by
  have bound : (d.withTerminal i t).boundPrinter i = d.boundPrinter i := rfl
  have named : (d.withTerminal i t).refName r = d.refName r := rfl
  have key : (d.withTerminal i t).takeKey i (.release n)
      = (e.withTerminal i t).makeScreen i (.result (some (.release o)) (.job (some (d.refName r))))
        (some (.jobList page)) := by
    simp [Device.takeKey, hs, Device.keyInListing, low, high, Device.keyRelease, refAt_of_pos low, h, bound, named,
      Device.releaseRef_withTerminal, ran]
  rw [key, Device.withTerminal_makeScreen hp]
  rfl

end InListing

theorem Device.refName_of_ticket (h : d.ticket r.ticket = some k) (hj : k.jobId = r.jobId) : d.refName r = k.name := by
  simp [Device.refName, h, hj]

/-- Acceptance restarts the idle deadline of a LISTING and keeps its page (R134). -/
theorem Terminal.accepted_session_listing {old : Time} {page : Nat} {refs : List PageRef}
    (h : t.session = .listing acct old page refs) (now idle : Time) (toggle : Bool) :
    (t.accepted now idle toggle).session = .listing acct idle page refs := by
  simp [Terminal.accepted, h]

/-- An accepted RELEASE n runs on the accepted record, and the line's cursor moves. -/
theorem exec_release_accepted {s : State} {line a n : Nat} {toggle : Bool} (running : s.device.running = true)
    (polled : s.device.awaits line a i) (present : (s.device.terminal i).presence = .present)
    (fresh : (s.device.terminal i).ack ≠ toggle) :
    exec (.release line toggle n) s = .next { s with
      device := ((s.device.withTerminal i ((s.device.terminal i).accepted s.device.uptime
        (s.device.idleAt line) toggle)).takeKey i (.release n)).advance line a } := by
  have answered := polled.accepted present fresh (.key (.release n))
  show Host.Outcome.next (whenRunning _ s) = _
  rw [whenRunning, if_pos running, answered]
  rfl

/-- Settles O43: the reference is followed to its ticket, and the conditions of each check give its outcome and the
device that the outcome leaves. -/
theorem releaseRunsTheChecksInOrder : Obligations.ReleaseRunsTheChecksInOrder := by
  unfold Obligations.ReleaseRunsTheChecksInOrder
  intro s line a i n acct page toggle old refs running polled present fresh session low high d q idle t gives here
  have joined : t.presence = .present := present
  have inListing : t.session = .listing acct idle page refs := Terminal.accepted_session_listing session ..
  have shows {e : Device} {o : ReleaseOutcome} {name : Option JobName}
      (taken : (d.withTerminal i t).takeKey i (.release n) = e.withTerminal i (t.releaseShown o name page)) :
      gives e o name := by
    rw [Terminal.releaseShown, inListing] at taken
    exact (exec_release_accepted running polled present fresh).trans
      (congrArg (fun x : Device => Host.Outcome.next { s with device := x.advance line a }) taken)
  have follows {r : PageRef} {e : Device} {o : ReleaseOutcome} (named : refs[n - 1]? = some r)
      (ran : d.releaseRef acct q r = (e, o)) : gives e o (some (d.refName r)) :=
    shows (Device.takeKey_release_ref joined inListing low high named ran)
  refine ⟨fun empty => shows (Device.takeKey_release_no_ref joined inListing low high empty),
    fun r named gone => ?_, fun r k named stored same listed => ?_⟩
  · refine ⟨d.refName r, follows named (Device.releaseRef_gone ?_)⟩
    refine Option.eq_none_iff_forall_ne_some.2 fun k found => ?_
    obtain ⟨stored, same, eligible⟩ := Device.listedTicket_eq_some_iff.1 found
    exact gone k stored same (Device.eligible_iff.1 eligible)
  intro rates est name refused other st tenant permitted lacks lacksA lacksT
  have found : d.listedTicket acct q r = some k :=
    Device.listedTicket_eq_some_iff.2 ⟨stored, same, Device.eligible_iff.2 listed⟩
  have gets {e : Device} {o : ReleaseOutcome} (ran : d.releaseRef acct q r = (e, o)) : gives e o name := by
    have shown : some (d.refName r) = name := congrArg some (Device.refName_of_ticket stored same)
    rw [← shown]
    exact follows named ran
  have refuses {o : ReleaseOutcome} (check : d.releaseCheck acct q k = o) (differs : o ≠ .released) : refused o :=
    gets (Device.releaseRef_refused found check differs)
  have freeOf (notOther : ¬ other) : d.atOther q k = false := Bool.eq_false_iff.2 (mt Device.atOther_iff.1 notOther)
  refine ⟨fun elsewhere => refuses (Device.releaseCheck_notHere (Device.atOther_iff.2 elsewhere)) nofun,
    fun notOther notOnline notMono => refuses (Device.releaseCheck_printerUnavailable (freeOf notOther) ?_) nofun,
    fun notOther mono colour => refuses (Device.releaseCheck_colourUnavailable (freeOf notOther) mono colour) nofun,
    fun notOther online colour denied => refuses (Device.releaseCheck_colourNotPermitted (freeOf notOther) online
      colour (Bool.eq_false_iff.2 (mt Device.colourPermitted_iff.1 denied))) nofun,
    fun notOther takes allowed => ?_⟩
  · refine Bool.eq_false_iff.2 (mt Device.releasable_iff.1 ?_)
    rintro (online | ⟨mono, -⟩)
    · exact notOnline online
    · exact notMono mono
  have check := Device.releaseCheck_printable (freeOf notOther) takes (allowed.imp_right Device.colourPermitted_iff.2)
  refine ⟨fun full => refuses (check.trans (if_pos full)) nofun, fun room => ?_⟩
  rw [if_neg (Nat.not_le.2 room)] at check
  have decides {v : Verdict} (verdict : d.verdict acct (d.estimate k q) = v) : d.releaseCheck acct q k = v.outcome :=
    check.trans (congrArg Verdict.outcome verdict)
  refine ⟨fun short => refuses (decides (Device.verdict_quotaAccount short)) nofun,
    fun enough short => refuses (decides (Device.verdict_quotaTenant enough short)) nofun,
    fun enough enoughToo => ?_⟩
  obtain ⟨owner, -, -⟩ := listed
  have released := Device.releaseRef_released found (decides (Device.verdict_admitted enough enoughToo))
  rw [Device.releaseInto_eq r.ticket owner] at released
  exact gets released

end Sys2Proof.Machine
end
